-- ==== Sys2Proof/Word.lean ====
section
/-! DEFINITION. The words of the GF256-RS unit: one 8-bit element (R31), the 16-bit data field of a response and
the 16-bit control registers (R18, R19, R53), and the 32-bit command and response word (R45, R53). -/

namespace Sys2Proof

/-- One 8-bit datum: a field element, or an unsigned integer 0..255 (R11, R31). -/
abbrev Byte := BitVec 8

/-- A control register, or the data field of a response (R18, R19, R53). -/
abbrev Half := BitVec 16

/-- A command word or a response word, passed whole and without a byte order (R31, R45, R53). -/
abbrev Word := BitVec 32

/-- A polynomial value: its coefficients, highest degree first, never trimmed (R12, R13). -/
abbrev Poly := List Byte

end Sys2Proof
end

