-- ==== Sys2Proof/Config.lean ====
section
/-! DEFINITION. The implementation parameters of the unit (R4). All are fixed but LMAX, which a machine holds in
its state as a number of the type Capacity (log 1). PORT_BINDING enters no rule and is not taken (R36, log 7). -/

namespace Sys2Proof.Config

/-- PRIM, the primitive polynomial x^8+x^4+x^3+x^2+1, bit i the coefficient of x^i (R4, R60). -/
def prim : Nat := 0x11D

/-- ALPHA, the primitive element: base of the tables and of the generator's roots (R4, R61). -/
def alpha : Byte := 2

/-- NS, the number of scalar registers (R4). -/
def numScalars : Nat := 8

/-- NP, the number of polynomial registers (R4). -/
def numPolys : Nat := 4

/-- A legal value of the parameter LMAX: "any integer 2..255" (R4). Other values are no parameter (V13). -/
abbrev Capacity := { n : Nat // 2 ≤ n ∧ n ≤ 255 }

/-- The default of LMAX (R4). -/
def defaultCapacity : Capacity := ⟨255, by decide⟩

end Sys2Proof.Config
end

