-- ==== Sys2Proof/Syntax.lean ====
section
/-! DEFINITION. The commands of the unit: one constructor per row of spec/opcode_table.json (R49). -/

namespace Sys2Proof

/-- A scalar register S0..S7 (R11, R47). -/
abbrev SReg := Fin 8

/-- A polynomial register P0..P3 (R12, R47). -/
abbrev PReg := Fin 4

/-- The 29 commands. Operands stand in the order of R55: destinations, sources, immediate. -/
inductive Instr where
  /-- NOP (R120). -/
  | nop
  /-- CLRERR (R121). -/
  | clrerr
  /-- CSRRD n (R122). -/
  | csrrd (n : Byte)
  /-- SLI sd, v (R123). -/
  | sli (d : SReg) (v : Byte)
  /-- SRD sa (R124). -/
  | srd (a : SReg)
  /-- GFADD sd, sa, sb (R67). -/
  | gfadd (d a b : SReg)
  /-- GFSUB sd, sa, sb (R68). -/
  | gfsub (d a b : SReg)
  /-- GFMUL sd, sa, sb (R69). -/
  | gfmul (d a b : SReg)
  /-- GFDIV sd, sa, sb (R70). -/
  | gfdiv (d a b : SReg)
  /-- GFPOW sd, sa, sb (R71). -/
  | gfpow (d a b : SReg)
  /-- GFPOWI sd, sa, n (R72). -/
  | gfpowi (d a : SReg) (n : Byte)
  /-- GFLOG sd, sa (R73). -/
  | gflog (d a : SReg)
  /-- GFALOG sd, sa (R74). -/
  | gfalog (d a : SReg)
  /-- PCLR pd (R125). -/
  | pclr (d : PReg)
  /-- PAPP pd, v (R126). -/
  | papp (d : PReg) (v : Byte)
  /-- PAPPS pd, sa (R127). -/
  | papps (d : PReg) (a : SReg)
  /-- PRD pa, j (R128). -/
  | prd (a : PReg) (j : Byte)
  /-- PGET sd, pa, j (R129). -/
  | pget (d : SReg) (a : PReg) (j : Byte)
  /-- PLEN pa (R91). -/
  | plen (a : PReg)
  /-- PDEG pa (R90). -/
  | pdeg (a : PReg)
  /-- PMOV pd, pa (R130). -/
  | pmov (d a : PReg)
  /-- PADD pd, pa, pb (R86). -/
  | padd (d a b : PReg)
  /-- PSUB pd, pa, pb (R87). -/
  | psub (d a b : PReg)
  /-- PMUL pd, pa, pb (R88). -/
  | pmul (d a b : PReg)
  /-- PDIVR pq, pr, pa, pb: quotient, remainder, dividend, divisor (R89). -/
  | pdivr (q r a b : PReg)
  /-- PEVAL sd, pa, sx (R92). -/
  | peval (d : SReg) (a : PReg) (x : SReg)
  /-- GENPOLY pd, n (R101). -/
  | genpoly (d : PReg) (n : Byte)
  /-- PSHL pd, pa, n (R110). -/
  | pshl (d a : PReg) (n : Byte)
  /-- RSENC pd, pa, n (R112). -/
  | rsenc (d a : PReg) (n : Byte)
  deriving DecidableEq, Repr

end Sys2Proof
end

