-- ==== Sys2Proof/WellFormed.lean ====
section
/-! DEFINITION. Which commands are legal: step 4 of R52. The register ranges of R47 hold by the operands' types. -/

namespace Sys2Proof

/-- The command-specific legal forms, step 4 of R52: CSRRD names control register 0 or 1 (R122), and PDIVR has two
different destinations (R89). Every other command has no illegal form of its own. -/
def Instr.wellFormed : Instr → Bool
  | .nop => true
  | .clrerr => true
  | .csrrd n => n == 0 || n == 1
  | .sli _ _ => true
  | .srd _ => true
  | .gfadd _ _ _ => true
  | .gfsub _ _ _ => true
  | .gfmul _ _ _ => true
  | .gfdiv _ _ _ => true
  | .gfpow _ _ _ => true
  | .gfpowi _ _ _ => true
  | .gflog _ _ => true
  | .gfalog _ _ => true
  | .pclr _ => true
  | .papp _ _ => true
  | .papps _ _ => true
  | .prd _ _ => true
  | .pget _ _ _ => true
  | .plen _ => true
  | .pdeg _ => true
  | .pmov _ _ => true
  | .padd _ _ _ => true
  | .psub _ _ _ => true
  | .pmul _ _ _ => true
  | .pdivr q r _ _ => q != r
  | .peval _ _ _ => true
  | .genpoly _ _ => true
  | .pshl _ _ _ => true
  | .rsenc _ _ _ => true

end Sys2Proof
end

