-- ==== Sys2Proof/Decode.lean ====
section
/-! DEFINITION. The encoding of commands: the fields of the command word (R45), the operand forms (R46), the opcode
map (R49), decoding of every 32-bit word with its rejections by name in the order of R52, and the encoder.

Steps 1 to 3 of R52 decide which command a word names and are the decoder's. Step 4, the illegal forms of CSRRD and
PDIVR, is `Instr.wellFormed`: the two meanings test it before they read a register, as their pseudocode does
(R89, R122; log 6). -/

namespace Sys2Proof

/-- The operand fields of a command word (R45). -/
@[ext] structure Fields where
  /-- bits 23:20 -/
  d : BitVec 4
  /-- bits 19:16 -/
  a : BitVec 4
  /-- bits 15:12 -/
  b : BitVec 4
  /-- bits 11:8 -/
  e : BitVec 4
  /-- bits 7:0 -/
  imm : Byte
  deriving DecidableEq, Repr

/-- What a form uses a specifier field for (R46): `S`, `P` or `-`. -/
inductive FieldUse where
  | unused
  | scalar
  | poly
  deriving DecidableEq, Repr

/-- One row of the table of operand forms (R46). -/
structure Layout where
  d : FieldUse
  a : FieldUse
  b : FieldUse
  e : FieldUse
  usesImm : Bool
  deriving DecidableEq, Repr

/-- The operand forms, under the names of R46. -/
inductive OpForm where
  | n | c | si | sr | sss | ssi | ss | pd | pdI | pdS | paI | spi | pa | pp | ppp | pppp | sps | ppi
  deriving DecidableEq, Repr

/-- The opcodes, one per command (R49). -/
inductive Opcode where
  | nop | clrerr | csrrd | sli | srd | gfadd | gfsub | gfmul | gfdiv | gfpow
  | gfpowi | gflog | gfalog | pclr | papp | papps | prd | pget | plen | pdeg
  | pmov | padd | psub | pmul | pdivr | peval | genpoly | pshl | rsenc
  deriving DecidableEq, Repr

/-- Why the decoder refuses a word: the first failing check of steps 1 to 3 of R52. Each is answered with
IllegalCommand (R50, R51, R47). -/
inductive DecodeError where
  /-- Step 1: the opcode is not in the map (R50). -/
  | reservedOpcode
  /-- Step 2: a field the form marks `-` is not zero (R51). -/
  | unusedFieldNonzero
  /-- Step 3: a register specifier the form uses is out of range (R47). -/
  | specifierOutOfRange
  deriving DecidableEq, Repr

/-! ## Bit fields of the command word (R45) -/

/-- `cmd[31:24]`. -/
def opField (w : Word) : Byte := w.extractLsb' 24 8

/-- The operand fields of a word: `cmd[23:20]`, `cmd[19:16]`, `cmd[15:12]`, `cmd[11:8]`, `cmd[7:0]`. -/
def fieldsOf (w : Word) : Fields :=
  { d := w.extractLsb' 20 4, a := w.extractLsb' 16 4, b := w.extractLsb' 12 4, e := w.extractLsb' 8 4,
    imm := w.extractLsb' 0 8 }

/-- "cmd = {op, d, a, b, e, imm}" (R45). -/
def pack (op : Byte) (f : Fields) : Word := op ++ f.d ++ f.a ++ f.b ++ f.e ++ f.imm

/-! ## Operand forms (R46) -/

/-- The table of operand forms. -/
def OpForm.layout : OpForm → Layout
  | .n => ⟨.unused, .unused, .unused, .unused, false⟩
  | .c => ⟨.unused, .unused, .unused, .unused, true⟩
  | .si => ⟨.scalar, .unused, .unused, .unused, true⟩
  | .sr => ⟨.unused, .scalar, .unused, .unused, false⟩
  | .sss => ⟨.scalar, .scalar, .scalar, .unused, false⟩
  | .ssi => ⟨.scalar, .scalar, .unused, .unused, true⟩
  | .ss => ⟨.scalar, .scalar, .unused, .unused, false⟩
  | .pd => ⟨.poly, .unused, .unused, .unused, false⟩
  | .pdI => ⟨.poly, .unused, .unused, .unused, true⟩
  | .pdS => ⟨.poly, .scalar, .unused, .unused, false⟩
  | .paI => ⟨.unused, .poly, .unused, .unused, true⟩
  | .spi => ⟨.scalar, .poly, .unused, .unused, true⟩
  | .pa => ⟨.unused, .poly, .unused, .unused, false⟩
  | .pp => ⟨.poly, .poly, .unused, .unused, false⟩
  | .ppp => ⟨.poly, .poly, .poly, .unused, false⟩
  | .pppp => ⟨.poly, .poly, .poly, .poly, false⟩
  | .sps => ⟨.scalar, .poly, .scalar, .unused, false⟩
  | .ppi => ⟨.poly, .poly, .unused, .unused, true⟩

/-- A field the form does not use must be zero (R51). -/
def FieldUse.unusedOk : FieldUse → BitVec 4 → Bool
  | .unused, v => v == 0
  | .scalar, _ => true
  | .poly, _ => true

/-- The legal values of a specifier: 0..7 for a scalar register, 0..3 for a polynomial register (R47). -/
def FieldUse.inRange : FieldUse → BitVec 4 → Bool
  | .unused, _ => true
  | .scalar, v => decide (v.toNat < Config.numScalars)
  | .poly, v => decide (v.toNat < Config.numPolys)

/-- Step 2 of R52: every unused field is zero. -/
def Layout.unusedZero (l : Layout) (f : Fields) : Bool :=
  l.d.unusedOk f.d && l.a.unusedOk f.a && l.b.unusedOk f.b && l.e.unusedOk f.e && (l.usesImm || f.imm == 0)

/-- Step 3 of R52: every used register specifier is in range. -/
def Layout.specifiersInRange (l : Layout) (f : Fields) : Bool :=
  l.d.inRange f.d && l.a.inRange f.a && l.b.inRange f.b && l.e.inRange f.e

/-! ## The opcode map (R49) -/

/-- The opcodes in the order of the map. -/
def Opcode.all : List Opcode :=
  [.nop, .clrerr, .csrrd, .sli, .srd, .gfadd, .gfsub, .gfmul, .gfdiv, .gfpow,
   .gfpowi, .gflog, .gfalog, .pclr, .papp, .papps, .prd, .pget, .plen, .pdeg,
   .pmov, .padd, .psub, .pmul, .pdivr, .peval, .genpoly, .pshl, .rsenc]

/-- The column `op` of the map. -/
def Opcode.code : Opcode → Byte
  | .nop => 0x00
  | .clrerr => 0x01
  | .csrrd => 0x02
  | .sli => 0x08
  | .srd => 0x09
  | .gfadd => 0x10
  | .gfsub => 0x11
  | .gfmul => 0x12
  | .gfdiv => 0x13
  | .gfpow => 0x14
  | .gfpowi => 0x15
  | .gflog => 0x16
  | .gfalog => 0x17
  | .pclr => 0x20
  | .papp => 0x21
  | .papps => 0x22
  | .prd => 0x23
  | .pget => 0x24
  | .plen => 0x25
  | .pdeg => 0x26
  | .pmov => 0x27
  | .padd => 0x28
  | .psub => 0x29
  | .pmul => 0x2A
  | .pdivr => 0x2B
  | .peval => 0x2C
  | .genpoly => 0x30
  | .pshl => 0x40
  | .rsenc => 0x41

/-- The column `form` of the map. -/
def Opcode.form : Opcode → OpForm
  | .nop => .n
  | .clrerr => .n
  | .csrrd => .c
  | .sli => .si
  | .srd => .sr
  | .gfadd => .sss
  | .gfsub => .sss
  | .gfmul => .sss
  | .gfdiv => .sss
  | .gfpow => .sss
  | .gfpowi => .ssi
  | .gflog => .ss
  | .gfalog => .ss
  | .pclr => .pd
  | .papp => .pdI
  | .papps => .pdS
  | .prd => .paI
  | .pget => .spi
  | .plen => .pa
  | .pdeg => .pa
  | .pmov => .pp
  | .padd => .ppp
  | .psub => .ppp
  | .pmul => .ppp
  | .pdivr => .pppp
  | .peval => .sps
  | .genpoly => .pdI
  | .pshl => .ppi
  | .rsenc => .ppi

/-- The column `mnemonic` of the map. -/
def Opcode.mnemonic : Opcode → String
  | .nop => "NOP"
  | .clrerr => "CLRERR"
  | .csrrd => "CSRRD"
  | .sli => "SLI"
  | .srd => "SRD"
  | .gfadd => "GFADD"
  | .gfsub => "GFSUB"
  | .gfmul => "GFMUL"
  | .gfdiv => "GFDIV"
  | .gfpow => "GFPOW"
  | .gfpowi => "GFPOWI"
  | .gflog => "GFLOG"
  | .gfalog => "GFALOG"
  | .pclr => "PCLR"
  | .papp => "PAPP"
  | .papps => "PAPPS"
  | .prd => "PRD"
  | .pget => "PGET"
  | .plen => "PLEN"
  | .pdeg => "PDEG"
  | .pmov => "PMOV"
  | .padd => "PADD"
  | .psub => "PSUB"
  | .pmul => "PMUL"
  | .pdivr => "PDIVR"
  | .peval => "PEVAL"
  | .genpoly => "GENPOLY"
  | .pshl => "PSHL"
  | .rsenc => "RSENC"

/-- Step 1 of R52: the opcode with this number, if the map has it. -/
def Opcode.ofByte (op : Byte) : Option Opcode := Opcode.all.find? fun o => o.code == op

/-! ## Decoding (R52) -/

/-- The scalar register a legal specifier names (R47). -/
def scalarOf (v : BitVec 4) : SReg := Fin.ofNat 8 v.toNat

/-- The polynomial register a legal specifier names (R47). -/
def polyOf (v : BitVec 4) : PReg := Fin.ofNat 4 v.toNat

/-- The command with this opcode and these fields (R46, R55). -/
def Opcode.assemble (o : Opcode) (f : Fields) : Instr :=
  match o with
  | .nop => .nop
  | .clrerr => .clrerr
  | .csrrd => .csrrd f.imm
  | .sli => .sli (scalarOf f.d) f.imm
  | .srd => .srd (scalarOf f.a)
  | .gfadd => .gfadd (scalarOf f.d) (scalarOf f.a) (scalarOf f.b)
  | .gfsub => .gfsub (scalarOf f.d) (scalarOf f.a) (scalarOf f.b)
  | .gfmul => .gfmul (scalarOf f.d) (scalarOf f.a) (scalarOf f.b)
  | .gfdiv => .gfdiv (scalarOf f.d) (scalarOf f.a) (scalarOf f.b)
  | .gfpow => .gfpow (scalarOf f.d) (scalarOf f.a) (scalarOf f.b)
  | .gfpowi => .gfpowi (scalarOf f.d) (scalarOf f.a) f.imm
  | .gflog => .gflog (scalarOf f.d) (scalarOf f.a)
  | .gfalog => .gfalog (scalarOf f.d) (scalarOf f.a)
  | .pclr => .pclr (polyOf f.d)
  | .papp => .papp (polyOf f.d) f.imm
  | .papps => .papps (polyOf f.d) (scalarOf f.a)
  | .prd => .prd (polyOf f.a) f.imm
  | .pget => .pget (scalarOf f.d) (polyOf f.a) f.imm
  | .plen => .plen (polyOf f.a)
  | .pdeg => .pdeg (polyOf f.a)
  | .pmov => .pmov (polyOf f.d) (polyOf f.a)
  | .padd => .padd (polyOf f.d) (polyOf f.a) (polyOf f.b)
  | .psub => .psub (polyOf f.d) (polyOf f.a) (polyOf f.b)
  | .pmul => .pmul (polyOf f.d) (polyOf f.a) (polyOf f.b)
  | .pdivr => .pdivr (polyOf f.d) (polyOf f.e) (polyOf f.a) (polyOf f.b)
  | .peval => .peval (scalarOf f.d) (polyOf f.a) (scalarOf f.b)
  | .genpoly => .genpoly (polyOf f.d) f.imm
  | .pshl => .pshl (polyOf f.d) (polyOf f.a) f.imm
  | .rsenc => .rsenc (polyOf f.d) (polyOf f.a) f.imm

/-- The decoder, total on all 2^32 words: steps 1 to 3 of R52, the first failing check decides. -/
def decode (w : Word) : Except DecodeError Instr :=
  match Opcode.ofByte (opField w) with
  | none => .error .reservedOpcode
  | some o =>
    if o.form.layout.unusedZero (fieldsOf w) = false then .error .unusedFieldNonzero
    else if o.form.layout.specifiersInRange (fieldsOf w) = false then .error .specifierOutOfRange
    else .ok (o.assemble (fieldsOf w))

/-- A word passes the whole of R52: the decoder reads a command (steps 1 to 3) and its form is legal (step 4). -/
def legalCommand (w : Word) : Bool :=
  match decode w with
  | .ok i => i.wellFormed
  | .error _ => false

/-- The instruction the decoder reads from an instruction whose bits are `w`, numbered as spec/opcode_table.json
numbers them. A command is one word, passed whole (R31, R54), so its bits are the word's value. -/
def decodeTableWord (nbits w : Nat) : Option Instr :=
  match decode (BitVec.ofNat 32 (w % 2 ^ nbits)) with
  | .ok i => some i
  | .error _ => none

/-! ## Encoding -/

/-- The specifier that names a scalar register (R47). -/
def scalarSpec (r : SReg) : BitVec 4 := BitVec.ofNat 4 r.val

/-- The specifier that names a polynomial register (R47). -/
def polySpec (k : PReg) : BitVec 4 := BitVec.ofNat 4 k.val

/-- The opcode of a command (R49). -/
def Instr.opcode : Instr → Opcode
  | .nop => .nop
  | .clrerr => .clrerr
  | .csrrd _ => .csrrd
  | .sli _ _ => .sli
  | .srd _ => .srd
  | .gfadd _ _ _ => .gfadd
  | .gfsub _ _ _ => .gfsub
  | .gfmul _ _ _ => .gfmul
  | .gfdiv _ _ _ => .gfdiv
  | .gfpow _ _ _ => .gfpow
  | .gfpowi _ _ _ => .gfpowi
  | .gflog _ _ => .gflog
  | .gfalog _ _ => .gfalog
  | .pclr _ => .pclr
  | .papp _ _ => .papp
  | .papps _ _ => .papps
  | .prd _ _ => .prd
  | .pget _ _ _ => .pget
  | .plen _ => .plen
  | .pdeg _ => .pdeg
  | .pmov _ _ => .pmov
  | .padd _ _ _ => .padd
  | .psub _ _ _ => .psub
  | .pmul _ _ _ => .pmul
  | .pdivr _ _ _ _ => .pdivr
  | .peval _ _ _ => .peval
  | .genpoly _ _ => .genpoly
  | .pshl _ _ _ => .pshl
  | .rsenc _ _ _ => .rsenc

/-- The operand fields of a command, the unused ones zero (R46, R51, R55). -/
def Instr.fields : Instr → Fields
  | .nop => ⟨0, 0, 0, 0, 0⟩
  | .clrerr => ⟨0, 0, 0, 0, 0⟩
  | .csrrd imm => ⟨0, 0, 0, 0, imm⟩
  | .sli d imm => ⟨scalarSpec d, 0, 0, 0, imm⟩
  | .srd a => ⟨0, scalarSpec a, 0, 0, 0⟩
  | .gfadd d a b => ⟨scalarSpec d, scalarSpec a, scalarSpec b, 0, 0⟩
  | .gfsub d a b => ⟨scalarSpec d, scalarSpec a, scalarSpec b, 0, 0⟩
  | .gfmul d a b => ⟨scalarSpec d, scalarSpec a, scalarSpec b, 0, 0⟩
  | .gfdiv d a b => ⟨scalarSpec d, scalarSpec a, scalarSpec b, 0, 0⟩
  | .gfpow d a b => ⟨scalarSpec d, scalarSpec a, scalarSpec b, 0, 0⟩
  | .gfpowi d a imm => ⟨scalarSpec d, scalarSpec a, 0, 0, imm⟩
  | .gflog d a => ⟨scalarSpec d, scalarSpec a, 0, 0, 0⟩
  | .gfalog d a => ⟨scalarSpec d, scalarSpec a, 0, 0, 0⟩
  | .pclr d => ⟨polySpec d, 0, 0, 0, 0⟩
  | .papp d imm => ⟨polySpec d, 0, 0, 0, imm⟩
  | .papps d a => ⟨polySpec d, scalarSpec a, 0, 0, 0⟩
  | .prd a imm => ⟨0, polySpec a, 0, 0, imm⟩
  | .pget d a imm => ⟨scalarSpec d, polySpec a, 0, 0, imm⟩
  | .plen a => ⟨0, polySpec a, 0, 0, 0⟩
  | .pdeg a => ⟨0, polySpec a, 0, 0, 0⟩
  | .pmov d a => ⟨polySpec d, polySpec a, 0, 0, 0⟩
  | .padd d a b => ⟨polySpec d, polySpec a, polySpec b, 0, 0⟩
  | .psub d a b => ⟨polySpec d, polySpec a, polySpec b, 0, 0⟩
  | .pmul d a b => ⟨polySpec d, polySpec a, polySpec b, 0, 0⟩
  | .pdivr d e a b => ⟨polySpec d, polySpec a, polySpec b, polySpec e, 0⟩
  | .peval d a b => ⟨scalarSpec d, polySpec a, scalarSpec b, 0, 0⟩
  | .genpoly d imm => ⟨polySpec d, 0, 0, 0, imm⟩
  | .pshl d a imm => ⟨polySpec d, polySpec a, 0, 0, imm⟩
  | .rsenc d a imm => ⟨polySpec d, polySpec a, 0, 0, imm⟩

/-- The word of a command (R45, R49). -/
def encode (i : Instr) : Word := pack i.opcode.code i.fields

/-! ## The machine-readable opcode table -/

/-- One row of spec/opcode_table.json: a word matches it when `word &&& mask = match` (R49). -/
structure OpcodeRow where
  mnemonic : String
  matchBits : Word
  mask : Word
  deriving DecidableEq, Repr

/-- spec/opcode_table.json, as it stands. -/
def opcodeTable : List OpcodeRow :=
  [⟨"NOP", 0x00000000, 0xFFFFFFFF⟩,
   ⟨"CLRERR", 0x01000000, 0xFFFFFFFF⟩,
   ⟨"CSRRD", 0x02000000, 0xFFFFFF00⟩,
   ⟨"SLI", 0x08000000, 0xFF0FFF00⟩,
   ⟨"SRD", 0x09000000, 0xFFF0FFFF⟩,
   ⟨"GFADD", 0x10000000, 0xFF000FFF⟩,
   ⟨"GFSUB", 0x11000000, 0xFF000FFF⟩,
   ⟨"GFMUL", 0x12000000, 0xFF000FFF⟩,
   ⟨"GFDIV", 0x13000000, 0xFF000FFF⟩,
   ⟨"GFPOW", 0x14000000, 0xFF000FFF⟩] ++
  [⟨"GFPOWI", 0x15000000, 0xFF00FF00⟩,
   ⟨"GFLOG", 0x16000000, 0xFF00FFFF⟩,
   ⟨"GFALOG", 0x17000000, 0xFF00FFFF⟩,
   ⟨"PCLR", 0x20000000, 0xFF0FFFFF⟩,
   ⟨"PAPP", 0x21000000, 0xFF0FFF00⟩,
   ⟨"PAPPS", 0x22000000, 0xFF00FFFF⟩,
   ⟨"PRD", 0x23000000, 0xFFF0FF00⟩,
   ⟨"PGET", 0x24000000, 0xFF00FF00⟩,
   ⟨"PLEN", 0x25000000, 0xFFF0FFFF⟩,
   ⟨"PDEG", 0x26000000, 0xFFF0FFFF⟩] ++
  [⟨"PMOV", 0x27000000, 0xFF00FFFF⟩,
   ⟨"PADD", 0x28000000, 0xFF000FFF⟩,
   ⟨"PSUB", 0x29000000, 0xFF000FFF⟩,
   ⟨"PMUL", 0x2A000000, 0xFF000FFF⟩,
   ⟨"PDIVR", 0x2B000000, 0xFF0000FF⟩,
   ⟨"PEVAL", 0x2C000000, 0xFF000FFF⟩,
   ⟨"GENPOLY", 0x30000000, 0xFF0FFF00⟩,
   ⟨"PSHL", 0x40000000, 0xFF00FF00⟩,
   ⟨"RSENC", 0x41000000, 0xFF00FF00⟩]

end Sys2Proof
end

