-- ==== Sys2Proof/Machine/State.lean ====
section
/-! DEFINITION. The state of the unit (R10), the kinds of error a command can raise (R141), what the host presents
at the port (R5, R57, R165), and the state right after reset (R22). -/

namespace Sys2Proof.Machine

/-- The error kinds 1 to 7 (R141). An error is an ordinary outcome of a command, not a stop of the machine. -/
inductive ErrorKind where
  /-- Code 1: division by a zero element or divisor. -/
  | divisionByZero
  /-- Code 2: generator of degree 0 requested. -/
  | invalidDegree
  /-- Code 3: empty message or no correction codewords requested. -/
  | invalidInput
  /-- Code 4: a result of more than LMAX coefficients. -/
  | lengthOverflow
  /-- Code 5: a coefficient index at or above the length. -/
  | indexRange
  /-- Code 6: a table index outside the table. -/
  | domainError
  /-- Code 7: an illegal command word. -/
  | illegalCommand
  deriving DecidableEq, Repr

/-- What the host does at the port, in the order it does it (R5, R57; log 4). -/
inductive HostEvent where
  /-- It presents a command word (R57). -/
  | command (w : Word)
  /-- It asserts and releases reset between commands (R165). -/
  | reset
  /-- It asserts reset while the unit executes the command it accepted with this word (R168). -/
  | resetDuring (w : Word)
  deriving DecidableEq, Repr

/-- The two tables (R16): `ALOG[i]` is entry i of `alog`, `LOG[v]` is entry v - 1 of `log` (log 9). -/
structure Tables where
  alog : Vector Byte 255
  log : Vector Byte 255
  deriving DecidableEq, Repr

/-- The whole state of the unit (R10), the parameter LMAX (log 1), and the port: what the host still presents
(log 4) and what the unit has answered (log 5). -/
structure State where
  /-- S0..S7 (R11). -/
  sreg : Vector Byte 8
  /-- P0..P3, each as the list of its coefficients, highest degree first; the list's length is `len` (R12, R24). -/
  preg : Vector Poly 4
  /-- ALOG and LOG (R16). -/
  tables : Tables
  /-- tbl_ready (R17). -/
  tblReady : Bool
  /-- STATUS.ERRS: the sticky flag of error code k at index k - 1 (R18). -/
  errs : BitVec 7
  /-- STATUS.LASTERR (R18). -/
  lastErr : BitVec 4
  /-- The parameter LMAX (R4). No step changes it. -/
  lmax : Config.Capacity
  /-- What the host still presents, oldest first. -/
  host : List HostEvent
  /-- The response words delivered so far, oldest first (R57, R179). -/
  responses : List Word
  deriving DecidableEq, Repr

/-- Reasons for the machine to stop with a fault: there are none. Every error of R141 is a next state (R142), and
"The unit never stops of its own accord" (R179). -/
inductive Fault where
  deriving DecidableEq, Repr

/-- Reasons for a meaning to be missing. -/
inductive Refusal where
  /-- Raised by an arm of `exec` that has no meaning yet, with the table's mnemonic. Safe: the model stops where the
  hardware goes on. No arm raises it. -/
  | notModelled (mnemonic : String)
  deriving DecidableEq, Repr

/-- The state right after reset (R22, R165). R22 leaves the table contents unspecified: they are zero here (log 2).
LMAX is the default (R4, log 1), nothing is presented and nothing answered (logs 4 and 5). -/
def State.reset : State :=
  { sreg := Vector.replicate 8 0
    preg := Vector.replicate 4 []
    tables := { alog := Vector.replicate 255 0, log := Vector.replicate 255 0 }
    tblReady := false
    errs := 0
    lastErr := 0
    lmax := Config.defaultCapacity
    host := []
    responses := [] }

end Sys2Proof.Machine
end

