-- ==== Sys2Proof/Machine/Flags.lean ====
section
/-! DEFINITION. Error codes and the two control registers: the codes of R141, STATUS with its sticky flags (R18), the
constant LIMITS (R19), and the response word (R53). The unit has no other flags (R18). -/

namespace Sys2Proof.Machine

/-- The code of an error kind (R141). -/
def ErrorKind.code : ErrorKind → BitVec 4
  | .divisionByZero => 1
  | .invalidDegree => 2
  | .invalidInput => 3
  | .lengthOverflow => 4
  | .indexRange => 5
  | .domainError => 6
  | .illegalCommand => 7

/-- The sticky flags with the one of kind k set: bit k of STATUS, index k - 1 of ERRS (R18). -/
def setSticky (errs : BitVec 7) (k : ErrorKind) : BitVec 7 := errs ||| (1#7 <<< (k.code.toNat - 1))

/-- STATUS as CSRRD reads it (R18): 15:12 zero, 11:8 LASTERR, 7:1 ERRS, 0 RDY. -/
def State.statusWord (s : State) : Half := 0#4 ++ s.lastErr ++ s.errs ++ BitVec.ofBool s.tblReady

/-- LIMITS as CSRRD reads it (R19): 15:12 NP, 11:8 NS, 7:0 LMAX. -/
def State.limitsWord (s : State) : Half :=
  BitVec.ofNat 4 Config.numPolys ++ BitVec.ofNat 4 Config.numScalars ++ BitVec.ofNat 8 s.lmax.val

/-- The response word (R53): 31:28 code, 27:16 zero, 15:0 data. -/
def responseWord (code : BitVec 4) (data : Half) : Word := code ++ 0#12 ++ data

end Sys2Proof.Machine
end

