-- ==== Sys2Proof/Machine/Operands.lean ====
section
/-! DEFINITION. Reading operands: a scalar register, a polynomial register, an immediate (R7, R48). All reads of one
command see the state before it (R23). -/

namespace Sys2Proof.Machine

/-- `S[i]`: read scalar register i (R7). -/
def State.S (s : State) (i : SReg) : Byte := s.sreg[i]

/-- `P[k]`: read polynomial register k whole (R7). -/
def State.P (s : State) (k : PReg) : Poly := s.preg[k]

/-- `zext_16` of an 8-bit value (R7). -/
def zext16 (v : Byte) : Half := v.setWidth 16

/-- "len - 1 as a 16-bit two's-complement number" (R53, R84, R90). -/
def degreeWord (p : Poly) : Half := BitVec.ofInt 16 ((p.length : Int) - 1)

/-- `zext_16(len)` (R53, R91). -/
def lengthWord (p : Poly) : Half := BitVec.ofNat 16 p.length

end Sys2Proof.Machine
end

