-- ==== Sys2Proof/Machine/Ops.lean ====
section
/-! DEFINITION. The named operations over the state: register writes, the end of a command with success or with an
error (R7, R142), TableInit (R166) and reset (R165). Taking an error is ONE operation, `State.raise`. An error
transfers no control and there is nothing to return from (R145, R146), so no return stands beside it. -/

namespace Sys2Proof.Machine

/-! ## Register writes -/

/-- `S[i] <- v` (R7). No scalar register is hardwired (R11). -/
def State.setS (s : State) (i : SReg) (v : Byte) : State := { s with sreg := s.sreg.set i v }

/-- `P[k] <- seq`: the length and every coefficient (R7). -/
def State.setP (s : State) (k : PReg) (p : Poly) : State := { s with preg := s.preg.set k p }

/-- "STATUS.ERRS <- 0 ; STATUS.LASTERR <- 0" (R121). -/
def State.clearErrors (s : State) : State := { s with errs := 0, lastErr := 0 }

/-! ## The end of a command -/

/-- The unit answers with status OK and the given data (R7, R53, R57). -/
def State.respond (s : State) (data : Half) : State :=
  { s with responses := s.responses ++ [responseWord 0 data] }

/-- A command raises error kind k (R142): no register and no table entry is written, sticky bit k is set, LASTERR is
k, and the response carries the code with data 0. -/
def State.raise (s : State) (k : ErrorKind) : State :=
  { s with
    errs := setSticky s.errs k
    lastErr := k.code
    responses := s.responses ++ [responseWord k.code 0] }

/-- The end of a command that started in state s: its error, raised in s, or its state after all its writes, which
answers with its data. "A command either completes entirely or, apart from the STATUS record, does nothing at all"
(R144). -/
def deliver (s : State) : Except ErrorKind (State × Half) → Host.Outcome State Fault Refusal
  | .error k => .next (s.raise k)
  | .ok (t, data) => .next (t.respond data)

/-! ## Reset and TableInit -/

/-- Reset (R165): every piece of state takes its reset value. The parameter, what the host still presents and the
responses already delivered are not the unit's state and stay (R10, R168). -/
def State.applyReset (s : State) : State :=
  { State.reset with lmax := s.lmax, host := s.host, responses := s.responses }

/-- TableInit (R166): the tables take the contents of R61 and `tbl_ready` is set; it writes nothing else. -/
def State.tableInit (s : State) : State := { s with tables := tableContents, tblReady := true }

/-- The unit with w presented as the very next command and accepted by the next step: the tables are filled first if
TableInit is still to come (R167). -/
def State.present (s : State) (w : Word) : State :=
  match s.tblReady with
  | true => { s with host := .command w :: s.host }
  | false => { s.tableInit with host := .command w :: s.host }

end Sys2Proof.Machine
end

