-- ==== Sys2Proof/Machine/Access.lean ====
section
/-! DEFINITION. Register access and system commands: NOP, CLRERR, CSRRD (R120 to R122), SLI, SRD (R123, R124), PCLR,
PAPP, PAPPS, PRD, PGET, PMOV (R125 to R130). -/

namespace Sys2Proof.Machine

/-- The append of one coefficient at the low-degree end, shared by PAPP and PAPPS (R126, R127). -/
def appendCoefficient (d : PReg) (v : Byte) (s : State) : Except ErrorKind (State × Half) :=
  if (s.P d).length = s.lmax.val then .error .lengthOverflow else .ok (s.setP d (s.P d ++ [v]), 0)

/-- `P[a].c[j]`, or IndexRange when j >= len, shared by PRD and PGET (R128, R129). -/
def coefficientAt (a : PReg) (j : Byte) (s : State) : Except ErrorKind Byte :=
  match (s.P a)[j.toNat]? with
  | none => .error .indexRange
  | some c => .ok c

/-- NOP (R120). -/
def execNop (s : State) : Host.Outcome State Fault Refusal := deliver s (.ok (s, 0))

/-- CLRERR (R121). -/
def execClrerr (s : State) : Host.Outcome State Fault Refusal := deliver s (.ok (s.clearErrors, 0))

/-- CSRRD n (R122): STATUS, LIMITS, or step 4 of decoding. -/
def execCsrrd (n : Byte) (s : State) : Host.Outcome State Fault Refusal :=
  deliver s (if n = 0 then .ok (s, s.statusWord)
    else if n = 1 then .ok (s, s.limitsWord)
    else .error .illegalCommand)

/-- SLI sd, v (R123). -/
def execSli (d : SReg) (v : Byte) (s : State) : Host.Outcome State Fault Refusal :=
  deliver s (.ok (s.setS d v, 0))

/-- SRD sa (R124). -/
def execSrd (a : SReg) (s : State) : Host.Outcome State Fault Refusal := deliver s (.ok (s, zext16 (s.S a)))

/-- PCLR pd (R125). -/
def execPclr (d : PReg) (s : State) : Host.Outcome State Fault Refusal := deliver s (.ok (s.setP d [], 0))

/-- PAPP pd, v (R126). -/
def execPapp (d : PReg) (v : Byte) (s : State) : Host.Outcome State Fault Refusal :=
  deliver s (appendCoefficient d v s)

/-- PAPPS pd, sa (R127). -/
def execPapps (d : PReg) (a : SReg) (s : State) : Host.Outcome State Fault Refusal :=
  deliver s (appendCoefficient d (s.S a) s)

/-- PRD pa, j (R128). -/
def execPrd (a : PReg) (j : Byte) (s : State) : Host.Outcome State Fault Refusal :=
  deliver s ((coefficientAt a j s).map fun c => (s, zext16 c))

/-- PGET sd, pa, j (R129). -/
def execPget (d : SReg) (a : PReg) (j : Byte) (s : State) : Host.Outcome State Fault Refusal :=
  deliver s ((coefficientAt a j s).map fun c => (s.setS d c, 0))

/-- PMOV pd, pa (R130). -/
def execPmov (d a : PReg) (s : State) : Host.Outcome State Fault Refusal := deliver s (.ok (s.setP d (s.P a), 0))

end Sys2Proof.Machine
end

