-- ==== Sys2Proof/Machine/Field.lean ====
section
/-! DEFINITION. GF(256) field arithmetic: the field functions of R62 to R66 over the tables the state holds (R16), and
the commands GFADD, GFSUB, GFMUL, GFDIV, GFPOW, GFPOWI, GFLOG, GFALOG (R67 to R74). -/

namespace Sys2Proof.Machine

/-! ## Table reads (R7, R16) -/

/-- `ALOG[i]`, i in 0..254. -/
def Tables.alogAt (t : Tables) (i : Fin 255) : Byte := t.alog[i]

/-- `LOG[v]`, v in 1..255, as an integer. There is no `LOG[0]` and no caller reads it: each tests for zero first
(log 9). -/
def Tables.logAt (t : Tables) (v : Byte) : Nat := (t.log[v.toNat - 1]'(by have := v.isLt; omega)).toNat

/-! ## Field functions -/

/-- `gf_add` (R62). -/
def gfAdd (a b : Byte) : Byte := a ^^^ b

/-- `gf_sub` (R62). -/
def gfSub (a b : Byte) : Byte := a ^^^ b

/-- `gf_mul` (R63). The sum of two logarithms is an integer and `Fin.ofNat 255` takes it mod 255 (R76). -/
def gfMul (t : Tables) (a b : Byte) : Byte :=
  if a = 0 ∨ b = 0 then 0 else t.alogAt (Fin.ofNat 255 (t.logAt a + t.logAt b))

/-- The quotient for a nonzero divisor: the second and third line of `gf_div` (R64). LOG values are 0..254, so
`LOG[a] - LOG[b] + 255` is written with the addition first and no step is negative (R76). -/
def gfQuo (t : Tables) (a b : Byte) : Byte :=
  if a = 0 then 0 else t.alogAt (Fin.ofNat 255 (t.logAt a + 255 - t.logAt b))

/-- `gf_div` (R64): the zero divisor is tested first. -/
def gfDiv (t : Tables) (a b : Byte) : Except ErrorKind Byte :=
  if b = 0 then .error .divisionByZero else .ok (gfQuo t a b)

/-- `gf_pow` (R65): repeated multiplication, `gf_pow(a, 0) = 1` for every a. -/
def gfPow (t : Tables) (a : Byte) : Nat → Byte
  | 0 => 1
  | n + 1 => gfMul t (gfPow t a n) a

/-- The carry-less product of R66: "for i in 0 .. 7: if b[i] = 1 then r <- r ^ (a << i)", on 15 bits. -/
def carrylessProduct (a b : Byte) : BitVec 15 :=
  (List.range 8).foldl (fun r i => if b.getLsbD i then r ^^^ (a.setWidth 15 <<< i) else r) 0

/-- The product without the tables (R66): "for i in 14 down to 8: if r[i] = 1 then r <- r ^ (0x11D << (i - 8))". -/
def clmulReduce (a b : Byte) : Byte :=
  ([14, 13, 12, 11, 10, 9, 8].foldl
    (fun r i => if r.getLsbD i then r ^^^ (BitVec.ofNat 15 Config.prim <<< (i - 8)) else r)
    (carrylessProduct a b)).setWidth 8

/-! ## Commands -/

/-- GFADD sd, sa, sb (R67). -/
def execGfadd (d a b : SReg) (s : State) : Host.Outcome State Fault Refusal :=
  deliver s (.ok (s.setS d (gfAdd (s.S a) (s.S b)), 0))

/-- GFSUB sd, sa, sb (R68). -/
def execGfsub (d a b : SReg) (s : State) : Host.Outcome State Fault Refusal :=
  deliver s (.ok (s.setS d (gfSub (s.S a) (s.S b)), 0))

/-- GFMUL sd, sa, sb (R69). -/
def execGfmul (d a b : SReg) (s : State) : Host.Outcome State Fault Refusal :=
  deliver s (.ok (s.setS d (gfMul s.tables (s.S a) (s.S b)), 0))

/-- GFDIV sd, sa, sb (R70): DivisionByZero when `S[b]` = 0. -/
def execGfdiv (d a b : SReg) (s : State) : Host.Outcome State Fault Refusal :=
  deliver s ((gfDiv s.tables (s.S a) (s.S b)).map fun v => (s.setS d v, 0))

/-- GFPOW sd, sa, sb (R71): the exponent is `S[b]` as an unsigned integer. -/
def execGfpow (d a b : SReg) (s : State) : Host.Outcome State Fault Refusal :=
  deliver s (.ok (s.setS d (gfPow s.tables (s.S a) (s.S b).toNat), 0))

/-- GFPOWI sd, sa, n (R72). -/
def execGfpowi (d a : SReg) (n : Byte) (s : State) : Host.Outcome State Fault Refusal :=
  deliver s (.ok (s.setS d (gfPow s.tables (s.S a) n.toNat), 0))

/-- GFLOG sd, sa (R73): DomainError when `S[a]` = 0. -/
def execGflog (d a : SReg) (s : State) : Host.Outcome State Fault Refusal :=
  deliver s (if s.S a = 0 then .error .domainError
    else .ok (s.setS d (BitVec.ofNat 8 (s.tables.logAt (s.S a))), 0))

/-- GFALOG sd, sa (R74): DomainError when `S[a]` = 255; the index is then 0..254. -/
def execGfalog (d a : SReg) (s : State) : Host.Outcome State Fault Refusal :=
  deliver s (if s.S a = 255 then .error .domainError
    else .ok (s.setS d (s.tables.alogAt (Fin.ofNat 255 (s.S a).toNat)), 0))

end Sys2Proof.Machine
end

