-- ==== Sys2Proof/Machine/Polynomial.lean ====
section
/-! DEFINITION. Polynomial arithmetic: the functions of R81 to R85 on coefficient sequences, highest degree first and
never trimmed (R12, R13), and the commands PADD, PSUB, PMUL, PDIVR, PDEG, PLEN, PEVAL (R86 to R92). -/

namespace Sys2Proof.Machine

/-! ## Functions -/

/-- `zeros(n)` (R6). -/
def zeros (n : Nat) : Poly := List.replicate n 0

/-- The sequence with zeros before it at the high-degree end, n coefficients in all (R81). -/
def padLeft (n : Nat) (p : Poly) : Poly := zeros (n - p.length) ++ p

/-- `poly_add` (R81). -/
def polyAdd (p q : Poly) : Poly :=
  let n := max p.length q.length
  List.zipWith gfAdd (padLeft n p) (padLeft n q)

/-- `poly_sub` (R81). -/
def polySub (p q : Poly) : Poly :=
  let n := max p.length q.length
  List.zipWith gfSub (padLeft n p) (padLeft n q)

/-- Every coefficient times c, from the left: `gf_mul(c, p[j])`. -/
def scale (t : Tables) (c : Byte) (p : Poly) : Poly := p.map (gfMul t c)

/-- "for j in 0 .. len(v)-1: w[j] <- w[j] ^ v[j]": the sequence v taken from w aligned at the leading term, the
inner loop of R82 and of R83. -/
def xorAtFront : Poly → Poly → Poly
  | w, [] => w
  | [], _ :: _ => []
  | x :: w, y :: v => (x ^^^ y) :: xorAtFront w v

/-- The double loop of `poly_mul` for a nonempty q (R82): the turn for `p[0]` adds `p[0] * q` at indices 0 and up to
what the turns for the other coefficients leave. "The order of the loops does not matter" (R82). -/
def mulTurns (t : Tables) : Poly → Poly → Poly
  | [], q => zeros (q.length - 1)
  | c :: p, q => xorAtFront (0 :: mulTurns t p q) (scale t c q)

/-- `poly_mul` (R82): the product with an empty operand is empty. -/
def polyMul (t : Tables) (p q : Poly) : Poly :=
  if p.length = 0 ∨ q.length = 0 then [] else mulTurns t p q

/-- The loop of `poly_divrem` from the running dividend w (R83): while `len(w) >= len(d)`, the factor, the
subtraction aligned at the leading term, and the drop of exactly one leading term. Answers the factors and the final
w. The first argument bounds the turns: w loses one coefficient in each, so `len(w)` is enough (R178). -/
def divTurns (t : Tables) (d : Poly) : Nat → Poly → Poly × Poly
  | 0, w => ([], w)
  | n + 1, w =>
    if w.length < d.length then ([], w)
    else
      let f := gfQuo t (w.headD 0) (d.headD 0)
      let rest := divTurns t d n (xorAtFront w (scale t f d)).tail
      (f :: rest.1, rest.2)

/-- `poly_divrem` (R83): quotient and remainder, or DivisionByZero for an empty divisor or a leading coefficient 0. -/
def polyDivrem (t : Tables) (p d : Poly) : Except ErrorKind (Poly × Poly) :=
  if d.length = 0 ∨ d.headD 0 = 0 then .error .divisionByZero else .ok (divTurns t d p.length p)

/-- `poly_eval` (R85): Horner's method from the highest degree down, starting at 0. -/
def polyEval (t : Tables) (p : Poly) (x : Byte) : Byte := p.foldl (fun acc c => gfMul t acc x ^^^ c) 0

/-! ## Commands -/

/-- PADD pd, pa, pb (R86). -/
def execPadd (d a b : PReg) (s : State) : Host.Outcome State Fault Refusal :=
  deliver s (.ok (s.setP d (polyAdd (s.P a) (s.P b)), 0))

/-- PSUB pd, pa, pb (R87). -/
def execPsub (d a b : PReg) (s : State) : Host.Outcome State Fault Refusal :=
  deliver s (.ok (s.setP d (polySub (s.P a) (s.P b)), 0))

/-- PMUL pd, pa, pb (R88). -/
def execPmul (d a b : PReg) (s : State) : Host.Outcome State Fault Refusal :=
  let la := (s.P a).length
  let lb := (s.P b).length
  deliver s (if 0 < la ∧ 0 < lb ∧ la + lb - 1 > s.lmax.val then .error .lengthOverflow
    else .ok (s.setP d (polyMul s.tables (s.P a) (s.P b)), 0))

/-- PDIVR pq, pr, pa, pb (R89): step 4 of decoding, the divisor's test, both results written together. -/
def execPdivr (q r a b : PReg) (s : State) : Host.Outcome State Fault Refusal :=
  deliver s (if q = r then .error .illegalCommand
    else (polyDivrem s.tables (s.P a) (s.P b)).map fun qr => ((s.setP q qr.1).setP r qr.2, 0))

/-- PDEG pa (R90). -/
def execPdeg (a : PReg) (s : State) : Host.Outcome State Fault Refusal :=
  deliver s (.ok (s, degreeWord (s.P a)))

/-- PLEN pa (R91). -/
def execPlen (a : PReg) (s : State) : Host.Outcome State Fault Refusal :=
  deliver s (.ok (s, lengthWord (s.P a)))

/-- PEVAL sd, pa, sx (R92). -/
def execPeval (d : SReg) (a : PReg) (x : SReg) (s : State) : Host.Outcome State Fault Refusal :=
  deliver s (.ok (s.setS d (polyEval s.tables (s.P a) (s.S x)), 0))

end Sys2Proof.Machine
end

