-- ==== Sys2Proof/Machine/Generator.lean ====
section
/-! DEFINITION. The generator polynomial (R100) and the command GENPOLY (R101). -/

namespace Sys2Proof.Machine

/-- `gen_poly` (R100): the accumulator starts at [1] and is multiplied by [1, α^i] for i = 0 .. n-1. -/
def genPoly (t : Tables) : Nat → Poly
  | 0 => [1]
  | n + 1 => polyMul t (genPoly t n) [1, gfPow t Config.alpha n]

/-- GENPOLY pd, n (R101): InvalidDegree first, then LengthOverflow. -/
def execGenpoly (d : PReg) (n : Byte) (s : State) : Host.Outcome State Fault Refusal :=
  deliver s (if n = 0 then .error .invalidDegree
    else if n.toNat + 1 > s.lmax.val then .error .lengthOverflow
    else .ok (s.setP d (genPoly s.tables n.toNat), 0))

end Sys2Proof.Machine
end

