-- ==== Sys2Proof/Machine/Encoder.lean ====
section
/-! DEFINITION. The message encoder: `rs_encode` (R111) and the commands PSHL and RSENC (R110, R112). -/

namespace Sys2Proof.Machine

/-- "P[a] ++ zeros(n)": the shift left by n degrees (R110, R111 step 3). -/
def shiftLeft (p : Poly) (n : Nat) : Poly := p ++ zeros n

/-- `rs_encode` (R111): the check, the dividend, the generator, the division, and the padding of the remainder on
the left to n coefficients. -/
def rsEncode (t : Tables) (m : Poly) (n : Nat) : Except ErrorKind Poly :=
  if m.length = 0 ∨ n = 0 then .error .invalidInput
  else (polyDivrem t (shiftLeft m n) (genPoly t n)).map fun qr => padLeft n qr.2

/-- PSHL pd, pa, n (R110). -/
def execPshl (d a : PReg) (n : Byte) (s : State) : Host.Outcome State Fault Refusal :=
  deliver s (if (s.P a).length + n.toNat > s.lmax.val then .error .lengthOverflow
    else .ok (s.setP d (shiftLeft (s.P a) n.toNat), 0))

/-- RSENC pd, pa, n (R112): InvalidInput first, then LengthOverflow. -/
def execRsenc (d a : PReg) (n : Byte) (s : State) : Host.Outcome State Fault Refusal :=
  deliver s (if (s.P a).length = 0 ∨ n = 0 then .error .invalidInput
    else if (s.P a).length + n.toNat > s.lmax.val then .error .lengthOverflow
    else (rsEncode s.tables (s.P a) n.toNat).map fun ecc => (s.setP d ecc, 0))

end Sys2Proof.Machine
end

