-- ==== Sys2Proof/Machine/Dispatch.lean ====
section
/-! DEFINITION. The meaning of every command: one arm per constructor of Instr. -/
namespace Sys2Proof.Machine

def exec (i : Instr) (s : State) : Host.Outcome State Fault Refusal :=
  match i with
  | .nop => Sys2Proof.Machine.execNop s
  | .clrerr => Sys2Proof.Machine.execClrerr s
  | .csrrd n => Sys2Proof.Machine.execCsrrd n s
  | .sli d v => Sys2Proof.Machine.execSli d v s
  | .srd a => Sys2Proof.Machine.execSrd a s
  | .gfadd d a b => Sys2Proof.Machine.execGfadd d a b s
  | .gfsub d a b => Sys2Proof.Machine.execGfsub d a b s
  | .gfmul d a b => Sys2Proof.Machine.execGfmul d a b s
  | .gfdiv d a b => Sys2Proof.Machine.execGfdiv d a b s
  | .gfpow d a b => Sys2Proof.Machine.execGfpow d a b s
  | .gfpowi d a n => Sys2Proof.Machine.execGfpowi d a n s
  | .gflog d a => Sys2Proof.Machine.execGflog d a s
  | .gfalog d a => Sys2Proof.Machine.execGfalog d a s
  | .pclr d => Sys2Proof.Machine.execPclr d s
  | .papp d v => Sys2Proof.Machine.execPapp d v s
  | .papps d a => Sys2Proof.Machine.execPapps d a s
  | .prd a j => Sys2Proof.Machine.execPrd a j s
  | .pget d a j => Sys2Proof.Machine.execPget d a j s
  | .plen a => Sys2Proof.Machine.execPlen a s
  | .pdeg a => Sys2Proof.Machine.execPdeg a s
  | .pmov d a => Sys2Proof.Machine.execPmov d a s
  | .padd d a b => Sys2Proof.Machine.execPadd d a b s
  | .psub d a b => Sys2Proof.Machine.execPsub d a b s
  | .pmul d a b => Sys2Proof.Machine.execPmul d a b s
  | .pdivr q r a b => Sys2Proof.Machine.execPdivr q r a b s
  | .peval d a x => Sys2Proof.Machine.execPeval d a x s
  | .genpoly d n => Sys2Proof.Machine.execGenpoly d n s
  | .pshl d a n => Sys2Proof.Machine.execPshl d a n s
  | .rsenc d a n => Sys2Proof.Machine.execRsenc d a n s

end Sys2Proof.Machine
end

