-- ==== Sys2Proof/Machine/Port.lean ====
section
/-! DEFINITION. The port: which of the three agents steps next (R5), and how a presented word is accepted, decoded and
executed (R52, R57, R165 to R168). -/

namespace Sys2Proof.Machine

/-- The unit executes an accepted word: a word that fails step 1, 2 or 3 of R52 raises IllegalCommand, every other word
is the command it decodes to. -/
def executeWord (w : Word) (s : State) : Host.Outcome State Fault Refusal :=
  match decode w with
  | .error _ => .next (s.raise .illegalCommand)
  | .ok i => exec i s

/-- The state once the host's oldest event is consumed. -/
def State.consume (s : State) (rest : List HostEvent) : State := { s with host := rest }

/-- One step of the whole machine.
- Reset at the port comes first, whatever the unit was doing (R165; log 4).
- Otherwise TableInit, while `tbl_ready` = 0: a command waits unexecuted and unanswered (R166, R167).
- Otherwise the oldest command is accepted and executed whole (R38), or abandoned by a reset that falls inside it: no
  response, none of its writes (R168).
- With nothing presented the unit is idle and keeps all its state (R157). -/
def serve (s : State) : Host.Outcome State Fault Refusal :=
  match s.host, s.tblReady with
  | .reset :: rest, _ => .next (s.consume rest).applyReset
  | [], false => .next s.tableInit
  | .command _ :: _, false => .next s.tableInit
  | .resetDuring _ :: _, false => .next s.tableInit
  | [], true => .next s
  | .command w :: rest, true => executeWord w (s.consume rest)
  | .resetDuring _ :: rest, true => .next (s.consume rest).applyReset

end Sys2Proof.Machine
end

