-- ==== Sys2Proof/Machine/Step.lean ====
section
/-! DEFINITION. The step of the machine, and a word placed so that the next step runs it. -/

namespace Sys2Proof.Machine

/-- One step: a reset, TableInit, one whole command, or idle (R5, R38). -/
def step (s : State) : Host.Outcome State Fault Refusal := serve s

/-- The state in which the very next step accepts and executes the command word w: the unit does not fetch (R15), so
the word is placed first at the port, and a unit that still waits for TableInit has it done (R167; log 3). A command
is one word (R54). -/
def State.withFetchWord (s : State) (nbits w : Nat) : State := s.present (BitVec.ofNat 32 (w % 2 ^ nbits))

end Sys2Proof.Machine
end

