-- ==== Sys2Proof/Machine/Assembly.lean ====
section
/-! DEFINITION. The assembler's view of the commands: the textual form (R55) and the pseudo-instructions with their
expansions (R56). Text is written, not read (log 10). -/

namespace Sys2Proof.Machine

/-- "s0..s7" (R55). -/
def sName (r : SReg) : String := "s" ++ toString r.val

/-- "p0..p3" (R55). -/
def pName (k : PReg) : String := "p" ++ toString k.val

/-- An immediate as a decimal number (R55). -/
def immText (v : Byte) : String := toString v.toNat

/-- "MNEMONIC operand, operand, ...", operands in the order destination(s), sources, immediate (R55). -/
def asmText : Instr → String
  | .nop => "NOP"
  | .clrerr => "CLRERR"
  | .csrrd n => "CSRRD" ++ " " ++ immText n
  | .sli d v => "SLI" ++ " " ++ sName d ++ ", " ++ immText v
  | .srd a => "SRD" ++ " " ++ sName a
  | .gfadd d a b => "GFADD" ++ " " ++ sName d ++ ", " ++ sName a ++ ", " ++ sName b
  | .gfsub d a b => "GFSUB" ++ " " ++ sName d ++ ", " ++ sName a ++ ", " ++ sName b
  | .gfmul d a b => "GFMUL" ++ " " ++ sName d ++ ", " ++ sName a ++ ", " ++ sName b
  | .gfdiv d a b => "GFDIV" ++ " " ++ sName d ++ ", " ++ sName a ++ ", " ++ sName b
  | .gfpow d a b => "GFPOW" ++ " " ++ sName d ++ ", " ++ sName a ++ ", " ++ sName b
  | .gfpowi d a n => "GFPOWI" ++ " " ++ sName d ++ ", " ++ sName a ++ ", " ++ immText n
  | .gflog d a => "GFLOG" ++ " " ++ sName d ++ ", " ++ sName a
  | .gfalog d a => "GFALOG" ++ " " ++ sName d ++ ", " ++ sName a
  | .pclr d => "PCLR" ++ " " ++ pName d
  | .papp d v => "PAPP" ++ " " ++ pName d ++ ", " ++ immText v
  | .papps d a => "PAPPS" ++ " " ++ pName d ++ ", " ++ sName a
  | .prd a j => "PRD" ++ " " ++ pName a ++ ", " ++ immText j
  | .pget d a j => "PGET" ++ " " ++ sName d ++ ", " ++ pName a ++ ", " ++ immText j
  | .plen a => "PLEN" ++ " " ++ pName a
  | .pdeg a => "PDEG" ++ " " ++ pName a
  | .pmov d a => "PMOV" ++ " " ++ pName d ++ ", " ++ pName a
  | .padd d a b => "PADD" ++ " " ++ pName d ++ ", " ++ pName a ++ ", " ++ pName b
  | .psub d a b => "PSUB" ++ " " ++ pName d ++ ", " ++ pName a ++ ", " ++ pName b
  | .pmul d a b => "PMUL" ++ " " ++ pName d ++ ", " ++ pName a ++ ", " ++ pName b
  | .pdivr q r a b => "PDIVR" ++ " " ++ pName q ++ ", " ++ pName r ++ ", " ++ pName a ++ ", " ++ pName b
  | .peval d a x => "PEVAL" ++ " " ++ sName d ++ ", " ++ pName a ++ ", " ++ sName x
  | .genpoly d n => "GENPOLY" ++ " " ++ pName d ++ ", " ++ immText n
  | .pshl d a n => "PSHL" ++ " " ++ pName d ++ ", " ++ pName a ++ ", " ++ immText n
  | .rsenc d a n => "RSENC" ++ " " ++ pName d ++ ", " ++ pName a ++ ", " ++ immText n

/-- The pseudo-instructions (R56). -/
inductive Pseudo where
  /-- GFXOR sd, sa, sb. -/
  | gfxor (d a b : SReg)
  /-- PLOAD pd, v0, v1, .... -/
  | pload (d : PReg) (vs : List Byte)
  /-- GFINV sd, sa. -/
  | gfinv (d a : SReg)
  /-- SMOV sd, sa. -/
  | smov (d a : SReg)
  deriving DecidableEq, Repr

/-- What R56 requires of a pseudo-instruction on a unit with capacity LMAX: GFINV "requires sd and sa to be different
registers", PLOAD has "m <= LMAX". -/
def Pseudo.wellFormed (lmax : Config.Capacity) : Pseudo → Bool
  | .gfxor _ _ _ => true
  | .pload _ vs => decide (vs.length ≤ lmax.val)
  | .gfinv d a => d != a
  | .smov _ _ => true

/-- The expansions (R56). -/
def Pseudo.expand : Pseudo → List Instr
  | .gfxor d a b => [.gfadd d a b]
  | .pload d vs => .pclr d :: vs.map (.papp d)
  | .gfinv d a => [.sli d 1, .gfdiv d d a]
  | .smov d a => [.gfpowi d a 1]

/-- Commands executed one after the other. "A failing command inside an expansion does not stop the host from sending
the rest" (R56): an error is a next state, and the commands after it run. -/
def execAll : List Instr → State → Host.Outcome State Fault Refusal
  | [], s => .next s
  | i :: is, s =>
    match exec i s with
    | .next t => execAll is t
    | .fault r => .fault r
    | .refused r => .refused r

end Sys2Proof.Machine
end

