-- ==== Sys2Proof/Safety.lean ====
section
/-! DEFINITION. What the statements about the unit are said in: the invariant of its states, what a command that
succeeds and a command that fails leave behind, which registers a command names as destinations, which errors it can
raise, which words are legal, and runs. -/

namespace Sys2Proof.Machine

/-! ## The invariant -/

/-- "0 <= len <= LMAX" for every polynomial register (R12). -/
def FitsCapacity (s : State) : Prop := ∀ k : PReg, (s.P k).length ≤ s.lmax.val

/-- Once `tbl_ready` is set the tables hold the contents of R61 (R16, R17). -/
def TablesFilled (s : State) : Prop := s.tblReady = true → s.tables = tableContents

/-- The sticky flag of error kind k: bit k of STATUS, index k - 1 of ERRS (R18). -/
def flagOf (errs : BitVec 7) (k : ErrorKind) : Bool := errs.getLsbD (k.code.toNat - 1)

/-- LASTERR is 0 when nothing failed since the last CLRERR or reset, and otherwise the code of a kind whose sticky
flag is set (R18, R146). -/
def StatusConsistent (s : State) : Prop :=
  (s.lastErr = 0 ∧ s.errs = 0) ∨ ∃ k : ErrorKind, s.lastErr = k.code ∧ flagOf s.errs k = true

/-- The invariant of the unit's states. -/
structure Inv (s : State) : Prop where
  fits : FitsCapacity s
  tables : TablesFilled s
  status : StatusConsistent s

/-! ## What a command leaves behind -/

/-- The tables and `tbl_ready` are unchanged, and so are the model's own fields for the parameter and for what the host
still presents (logs 1 and 4). -/
structure SameControl (s t : State) : Prop where
  tables : t.tables = s.tables
  tblReady : t.tblReady = s.tblReady
  lmax : t.lmax = s.lmax
  host : t.host = s.host

/-- ERRS and LASTERR are unchanged. -/
structure SameStatus (s t : State) : Prop where
  errs : t.errs = s.errs
  lastErr : t.lastErr = s.lastErr

/-- Every scalar register outside `ss` and every polynomial register outside `ps` is unchanged, with all its
coefficients. -/
structure RegistersExcept (ss : List SReg) (ps : List PReg) (s t : State) : Prop where
  scalars : ∀ i : SReg, i ∉ ss → t.S i = s.S i
  polys : ∀ k : PReg, k ∉ ps → t.P k = s.P k

/-- A command that started in s succeeded and left t: it wrote at most the registers of `ss` and `ps`, and answered
status OK with `data` (R23, R53). -/
structure Succeeded (ss : List SReg) (ps : List PReg) (data : Half) (s t : State) : Prop where
  registers : RegistersExcept ss ps s t
  control : SameControl s t
  status : SameStatus s t
  answered : t.responses = s.responses ++ [responseWord 0 data]

/-- A command that started in s failed with error kind k and left t (R142). -/
structure Failed (k : ErrorKind) (s t : State) : Prop where
  registers : RegistersExcept [] [] s t
  control : SameControl s t
  flagSet : flagOf t.errs k = true
  otherFlags : ∀ j : ErrorKind, j ≠ k → flagOf t.errs j = flagOf s.errs j
  lastErr : t.lastErr = k.code
  answered : t.responses = s.responses ++ [BitVec.ofNat 32 (k.code.toNat * 2 ^ 28)]

/-! ## Destinations and errors of the commands -/

/-- The scalar register a command names as destination (R10, R46). -/
def scalarDests : Instr → List SReg
  | .nop => []
  | .clrerr => []
  | .csrrd _ => []
  | .sli d _ => [d]
  | .srd _ => []
  | .gfadd d _ _ => [d]
  | .gfsub d _ _ => [d]
  | .gfmul d _ _ => [d]
  | .gfdiv d _ _ => [d]
  | .gfpow d _ _ => [d]
  | .gfpowi d _ _ => [d]
  | .gflog d _ => [d]
  | .gfalog d _ => [d]
  | .pclr _ => []
  | .papp _ _ => []
  | .papps _ _ => []
  | .prd _ _ => []
  | .pget d _ _ => [d]
  | .plen _ => []
  | .pdeg _ => []
  | .pmov _ _ => []
  | .padd _ _ _ => []
  | .psub _ _ _ => []
  | .pmul _ _ _ => []
  | .pdivr _ _ _ _ => []
  | .peval d _ _ => [d]
  | .genpoly _ _ => []
  | .pshl _ _ _ => []
  | .rsenc _ _ _ => []

/-- The polynomial registers a command names as destinations (R10, R46). -/
def polyDests : Instr → List PReg
  | .nop => []
  | .clrerr => []
  | .csrrd _ => []
  | .sli _ _ => []
  | .srd _ => []
  | .gfadd _ _ _ => []
  | .gfsub _ _ _ => []
  | .gfmul _ _ _ => []
  | .gfdiv _ _ _ => []
  | .gfpow _ _ _ => []
  | .gfpowi _ _ _ => []
  | .gflog _ _ => []
  | .gfalog _ _ => []
  | .pclr d => [d]
  | .papp d _ => [d]
  | .papps d _ => [d]
  | .prd _ _ => []
  | .pget _ _ _ => []
  | .plen _ => []
  | .pdeg _ => []
  | .pmov d _ => [d]
  | .padd d _ _ => [d]
  | .psub d _ _ => [d]
  | .pmul d _ _ => [d]
  | .pdivr q r _ _ => [q, r]
  | .peval _ _ _ => []
  | .genpoly d _ => [d]
  | .pshl d _ _ => [d]
  | .rsenc d _ _ => [d]

/-- The errors a command can raise "besides IllegalCommand, which every command word can raise at decoding" (R143). -/
def ownErrors : Instr → List ErrorKind
  | .nop => []
  | .clrerr => []
  | .csrrd _ => []
  | .sli _ _ => []
  | .srd _ => []
  | .gfadd _ _ _ => []
  | .gfsub _ _ _ => []
  | .gfmul _ _ _ => []
  | .gfdiv _ _ _ => [.divisionByZero]
  | .gfpow _ _ _ => []
  | .gfpowi _ _ _ => []
  | .gflog _ _ => [.domainError]
  | .gfalog _ _ => [.domainError]
  | .pclr _ => []
  | .papp _ _ => [.lengthOverflow]
  | .papps _ _ => [.lengthOverflow]
  | .prd _ _ => [.indexRange]
  | .pget _ _ _ => [.indexRange]
  | .plen _ => []
  | .pdeg _ => []
  | .pmov _ _ => []
  | .padd _ _ _ => []
  | .psub _ _ _ => []
  | .pmul _ _ _ => [.lengthOverflow]
  | .pdivr _ _ _ _ => [.divisionByZero]
  | .peval _ _ _ => []
  | .genpoly _ _ => [.invalidDegree, .lengthOverflow]
  | .pshl _ _ _ => [.lengthOverflow]
  | .rsenc _ _ _ => [.invalidInput, .lengthOverflow]

/-- The commands whose response carries a value: "SRD, PRD, PLEN, PDEG, CSRRD" (R53). -/
def returnsData : Instr → Bool
  | .nop => false
  | .clrerr => false
  | .csrrd _ => true
  | .sli _ _ => false
  | .srd _ => true
  | .gfadd _ _ _ => false
  | .gfsub _ _ _ => false
  | .gfmul _ _ _ => false
  | .gfdiv _ _ _ => false
  | .gfpow _ _ _ => false
  | .gfpowi _ _ _ => false
  | .gflog _ _ => false
  | .gfalog _ _ => false
  | .pclr _ => false
  | .papp _ _ => false
  | .papps _ _ => false
  | .prd _ _ => true
  | .pget _ _ _ => false
  | .plen _ => true
  | .pdeg _ => true
  | .pmov _ _ => false
  | .padd _ _ _ => false
  | .psub _ _ _ => false
  | .pmul _ _ _ => false
  | .pdivr _ _ _ _ => false
  | .peval _ _ _ => false
  | .genpoly _ _ => false
  | .pshl _ _ _ => false
  | .rsenc _ _ _ => false

/-! ## Legal words, by the numbers of R45 -/

/-- A specifier field that its form uses as `use` holds a legal value: 0 where it is unused (R51), 0..7 for a scalar
register, 0..3 for a polynomial register (R47). -/
def FieldLegal (use : FieldUse) (v : Nat) : Prop :=
  match use with
  | .unused => v = 0
  | .scalar => v ≤ 7
  | .poly => v ≤ 3

/-- The word passes the four checks of R52, said by division of its value
`op*2^24 + d*2^20 + a*2^16 + b*2^12 + e*2^8 + imm` (R45). -/
def LegalWord (w : Word) : Prop :=
  ∃ o : Opcode,
    w.toNat / 2 ^ 24 = o.code.toNat ∧
    FieldLegal o.form.layout.d (w.toNat / 2 ^ 20 % 16) ∧
    FieldLegal o.form.layout.a (w.toNat / 2 ^ 16 % 16) ∧
    FieldLegal o.form.layout.b (w.toNat / 2 ^ 12 % 16) ∧
    FieldLegal o.form.layout.e (w.toNat / 2 ^ 8 % 16) ∧
    (o.form.layout.usesImm = false → w.toNat % 256 = 0) ∧
    (o = .csrrd → w.toNat % 256 ≤ 1) ∧
    (o = .pdivr → w.toNat / 2 ^ 20 % 16 ≠ w.toNat / 2 ^ 8 % 16)

/-- The layout of a response word (R53): code 0..7, bits 27:16 zero, data 0 whenever the code is not 0. -/
def ResponseLayout (r : Word) : Prop :=
  r.toNat / 2 ^ 28 ≤ 7 ∧ r.toNat / 2 ^ 16 % 2 ^ 12 = 0 ∧ (r.toNat / 2 ^ 28 ≠ 0 → r.toNat % 2 ^ 16 = 0)

/-! ## Runs and sums -/

/-- n steps of the machine. -/
def run (n : Nat) (s : State) : Host.Outcome State Fault Refusal := Host.Core.run Sys2Proof.core n s

/-- The field sum of f(0), ..., f(n-1) (R62). -/
def fieldSum (n : Nat) (f : Nat → Byte) : Byte := (List.range n).foldl (fun acc i => acc ^^^ f i) 0

end Sys2Proof.Machine
end

