-- ==== Sys2Proof/Certificates/Slice0/Obligations.lean ====
section
/-! DEFINITION. The statements for the provers. Each docstring names the rule of spec/ it formalises. -/

open Sys2Proof Sys2Proof.Machine

/-! ## Encoding and decoding -/

/-- R45, R46, R49: words written out from the spec's encodings are the commands they stand for, one or more per family. -/
def Obligations.SpecWordsDecodeToTheirCommands : Prop :=
  decode 0x00000000 = .ok .nop ∧
  decode 0x01000000 = .ok .clrerr ∧
  decode 0x02000001 = .ok (.csrrd 1) ∧
  decode 0x08300053 = .ok (.sli 3 0x53) ∧
  decode 0x09030000 = .ok (.srd 3) ∧
  decode 0x10201000 = .ok (.gfadd 2 0 1) ∧
  decode 0x15100019 = .ok (.gfpowi 1 0 25) ∧
  decode 0x22110000 = .ok (.papps 1 1) ∧
  decode 0x24400005 = .ok (.pget 4 0 5) ∧
  decode 0x2B320100 = .ok (.pdivr 3 1 2 0) ∧
  decode 0x2C001000 = .ok (.peval 0 0 1) ∧
  decode 0x30000005 = .ok (.genpoly 0 5) ∧
  decode 0x41100002 = .ok (.rsenc 1 0 2) ∧
  decode 0x03000000 = .error .reservedOpcode ∧
  decode 0x10123001 = .error .unusedFieldNonzero ∧
  decode 0x10801000 = .error .specifierOutOfRange

/-- R45, R46, R49: decoding the word of any command gives the command back, with every operand. -/
def Obligations.DecodeOfEncodeIsTheCommand : Prop := ∀ i : Instr, decode (encode i) = .ok i

/-- R51, R52: a word that decodes is the word of the command it decodes to, so no bit of it is ignored. -/
def Obligations.DecodedWordIsTheEncoding : Prop := ∀ (w : Word) (i : Instr), decode w = .ok i → encode i = w

/-- R49: a word matches a row of the opcode table exactly when it passes steps 1 and 2 of R52, and a word that decodes
matches the row of its command's mnemonic. -/
def Obligations.TableRowsMatchExactlyStepsOneAndTwo : Prop :=
  (∀ w : Word, (∃ row ∈ opcodeTable, w &&& row.mask = row.matchBits) ↔
      (decode w ≠ .error .reservedOpcode ∧ decode w ≠ .error .unusedFieldNonzero)) ∧
  (∀ (w : Word) (i : Instr), decode w = .ok i →
      ∀ row ∈ opcodeTable, (w &&& row.mask = row.matchBits ↔ row.mnemonic = i.opcode.mnemonic))

/-- R47, R50, R51 (with steps 4 of R52): a word that is not legal raises IllegalCommand, whatever the registers hold,
and leaves only the STATUS record; a legal word is answered with another response than IllegalCommand's. -/
def Obligations.IllegalWordsAndOnlyTheyRaiseIllegalCommand : Prop :=
  ∀ (s : State) (w : Word) (rest : List HostEvent), s.tblReady = true → s.host = .command w :: rest →
    (¬ LegalWord w → ∃ t, step s = .next t ∧ Failed .illegalCommand (s.consume rest) t) ∧
    (LegalWord w → ∃ t r, step s = .next t ∧ t.responses = s.responses ++ [r] ∧ r ≠ 0x70000000)

/-! ## The step -/

/-- R38, R57: when the oldest presented word decodes to a command, the step of a ready unit is that command's, in the
state with the word consumed. -/
def Obligations.StepRunsTheDecodedCommand : Prop :=
  ∀ (s : State) (w : Word) (rest : List HostEvent) (i : Instr),
    s.tblReady = true → s.host = .command w :: rest → decode w = .ok i → step s = exec i (s.consume rest)

/-- R166, R167: while `tbl_ready` = 0 and the host does not assert reset next, the step is TableInit, which fills the
tables, sets `tbl_ready` and writes nothing else: a presented command waits unexecuted and unanswered, and the next step
runs it. (That a command which a reset is to interrupt waits for TableInit like any other is the model's deduction,
log 4.) -/
def Obligations.CommandsWaitForTableInit : Prop :=
  ∀ s : State, s.tblReady = false → (∀ rest, s.host ≠ .reset :: rest) →
    ∃ t, step s = .next t ∧ t.tables = tableContents ∧ t.tblReady = true ∧
      RegistersExcept [] [] s t ∧ SameStatus s t ∧ t.lmax = s.lmax ∧ t.host = s.host ∧ t.responses = s.responses ∧
      (∀ w rest, s.host = .command w :: rest → step t = executeWord w (t.consume rest))

/-- R165: reset asserted at the port gives every register, the STATUS record and `tbl_ready` its reset value in any
state, answers nothing and keeps the responses already delivered. (That the host's later events and the parameter stay
is the model's choice, logs 1 and 4.) -/
def Obligations.ResetGivesResetValues : Prop :=
  ∀ (s : State) (rest : List HostEvent), s.host = .reset :: rest →
    ∃ t, step s = .next t ∧ (∀ i, t.S i = 0) ∧ (∀ k, t.P k = []) ∧ t.errs = 0 ∧ t.lastErr = 0 ∧ t.tblReady = false ∧
      t.lmax = s.lmax ∧ t.host = rest ∧ t.responses = s.responses

/-- R168: a command during which reset is asserted produces no response and none of its writes survive; responses
already delivered stay delivered. (That the host's later events and the parameter stay is the model's choice, logs 1
and 4.) -/
def Obligations.ResetAbandonsTheCommandItInterrupts : Prop :=
  ∀ (s : State) (w : Word) (rest : List HostEvent), s.tblReady = true → s.host = .resetDuring w :: rest →
    ∃ t, step s = .next t ∧ (∀ i, t.S i = 0) ∧ (∀ k, t.P k = []) ∧ t.errs = 0 ∧ t.lastErr = 0 ∧ t.tblReady = false ∧
      t.lmax = s.lmax ∧ t.host = rest ∧ t.responses = s.responses

/-- R22: the state after reset and the state after the TableInit step that follows it, in the values the rule gives. -/
def Obligations.StateAfterResetAndAfterTableInit : Prop :=
  (∀ i, State.reset.S i = 0) ∧ (∀ k, State.reset.P k = []) ∧ State.reset.tblReady = false ∧ State.reset.errs = 0 ∧
  State.reset.lastErr = 0 ∧ State.reset.limitsWord = 0x48FF ∧
  ∃ t, step State.reset = .next t ∧ (∀ i, t.S i = 0) ∧ (∀ k, t.P k = []) ∧ t.tables = tableContents ∧
    t.tblReady = true ∧ t.errs = 0 ∧ t.lastErr = 0 ∧ t.limitsWord = 0x48FF ∧ t.statusWord = 1

/-- R157: a ready unit with nothing presented keeps all its state. (That such a unit has a step at all is the model's
choice, log 4.) -/
def Obligations.IdleUnitKeepsItsState : Prop :=
  ∀ s : State, s.tblReady = true → s.host = [] → step s = .next s

/-- R146, R178, R179: no state stops the machine, and every command ends in a next state from every state. -/
def Obligations.UnitNeverStops : Prop :=
  (∀ s : State, ∃ t, step s = .next t) ∧ (∀ (i : Instr) (s : State), ∃ t, exec i s = .next t)

/-- R38, R57, R178: a finite list of commands presented to the unit is answered by exactly one response each, in the
order of the commands, in one step each, after the TableInit step where that is still to come: command i starts from
exactly the state u that the steps before it left, its step leaves the state v that executing its word gives, and the
response this adds is the i-th new one. Every response has the layout of R53. (The list of what the host presents, and
the number of steps counted here, are the model's choice, log 4; the record of the responses is log 5.) -/
def Obligations.EveryCommandIsAnsweredOnce : Prop :=
  ∀ (ws : List Word) (s : State), s.host = ws.map HostEvent.command →
    ∃ (init : Nat) (t : State) (rs : List Word),
      init = (if s.tblReady then 0 else 1) ∧ run (init + ws.length) s = .next t ∧ t.host = [] ∧ t.tblReady = true ∧
      rs.length = ws.length ∧ t.responses = s.responses ++ rs ∧ (∀ r ∈ rs, ResponseLayout r) ∧
      ∀ (i : Nat) (w : Word), ws[i]? = some w → ∃ (u v : State) (r : Word),
        run (init + i) s = .next u ∧ u.host = (ws.drop i).map HostEvent.command ∧
        u.responses = s.responses ++ rs.take i ∧
        executeWord w (u.consume ((ws.drop (i + 1)).map HostEvent.command)) = .next v ∧
        run (init + i + 1) s = .next v ∧ v.responses = u.responses ++ [r] ∧ rs[i]? = some r

/-- R53: every response has code 0..7, reserved bits 0, and data 0 unless the code is 0 and the command is SRD, PRD,
PLEN, PDEG or CSRRD. An accepted word is answered with one such response, also where the decoder refuses it, and a step
of the machine adds one such response or none. (The record of the responses is the model's own, log 5.) -/
def Obligations.ResponsesHaveTheirLayout : Prop :=
  (∀ (w : Word) (s : State), ∃ t r, executeWord w s = .next t ∧ t.responses = s.responses ++ [r] ∧ ResponseLayout r ∧
      ((∀ i, decode w = .ok i → returnsData i = false) → r.toNat % 2 ^ 16 = 0)) ∧
  (∀ (i : Instr) (s t : State), exec i s = .next t →
      ∃ r, t.responses = s.responses ++ [r] ∧ ResponseLayout r ∧ (returnsData i = false → r.toNat % 2 ^ 16 = 0)) ∧
  (∀ s t : State, step s = .next t →
      t.responses = s.responses ∨ ∃ r, t.responses = s.responses ++ [r] ∧ ResponseLayout r)

/-- R17, R22: what the tables hold between reset and TableInit cannot be observed. Two machines that differ there alone
answer alike in every run, and are the same machine once `tbl_ready` is set. (The model's own reset contents, log 2,
enter no answer.) -/
def Obligations.TablesBeforeInitAreUnobservable : Prop :=
  ∀ (n : Nat) (s : State) (junk : Tables), s.tblReady = false →
    ∃ t u, run n s = .next t ∧ run n { s with tables := junk } = .next u ∧ u.responses = t.responses ∧
      u.tblReady = t.tblReady ∧ (∀ i, u.S i = t.S i) ∧ (∀ k, u.P k = t.P k) ∧ (t.tblReady = true → u = t)

/-! ## Rules about every command -/

/-- R23, R10: a command writes no register but its named destinations, and no command touches the tables,
`tbl_ready`, the parameter or the port. -/
def Obligations.CommandsWriteOnlyTheirDestinations : Prop :=
  ∀ (i : Instr) (s t : State), exec i s = .next t →
    RegistersExcept (scalarDests i) (polyDests i) s t ∧ SameControl s t

/-- R142, R144: a command either succeeds, with code 0 and the STATUS record as it was (but for CLRERR), or fails with
one error kind and leaves nothing but the STATUS record and the response `k * 2^28`. -/
def Obligations.CommandsSucceedOrLeaveOnlyTheRecord : Prop :=
  ∀ (i : Instr) (s : State), ∃ t, exec i s = .next t ∧
    ((∃ data, t.responses = s.responses ++ [responseWord 0 data] ∧ (i ≠ .clrerr → SameStatus s t)) ∨
     (∃ k, Failed k s t))

/-- R143: with the tables filled, a command raises no error but those the rule lists for it; IllegalCommand comes only
from the two illegal forms of step 4 of decoding. -/
def Obligations.CommandsRaiseOnlyTheirErrors : Prop :=
  ∀ (i : Instr) (s t : State) (k : ErrorKind), s.tables = tableContents → exec i s = .next t →
    t.responses = s.responses ++ [responseWord k.code 0] →
    k ∈ ownErrors i ∨ (k = .illegalCommand ∧ i.wellFormed = false)

/-- R18, R146: nothing but CLRERR and reset clears a sticky flag, and after an error LASTERR is not 0 again before
one of them. -/
def Obligations.OnlyClrerrAndResetClearTheRecord : Prop :=
  ∀ s t : State, step s = .next t →
    (∀ rest, s.host ≠ .reset :: rest) → (∀ w rest, s.host ≠ .resetDuring w :: rest) →
    (∀ rest, s.host ≠ .command 0x01000000 :: rest) →
    (∀ k, flagOf s.errs k = true → flagOf t.errs k = true) ∧ (s.lastErr ≠ 0 → t.lastErr ≠ 0)

/-- R16: after TableInit the tables never change again until the next reset. -/
def Obligations.TablesStayUntilReset : Prop :=
  ∀ s t : State, s.tblReady = true → step s = .next t →
    (∀ rest, s.host ≠ .reset :: rest) → (∀ w rest, s.host ≠ .resetDuring w :: rest) →
    t.tables = s.tables ∧ t.tblReady = true

/-! ## The invariant -/

/-- R22: the state after reset meets the invariant. -/
def Obligations.ResetStateMeetsTheInvariant : Prop := Inv State.reset

/-- R12, R16, R17, R18: every step from a state that meets the invariant leads to one that does: no register exceeds
LMAX, a ready unit's tables are those of R61, and LASTERR agrees with the sticky flags. -/
def Obligations.StepKeepsTheInvariant : Prop := ∀ s t : State, Inv s → step s = .next t → Inv t

/-! ## System and scalar access commands -/

/-- R120: NOP is the word 0 exactly, answers 0 and changes no state; any other word with opcode 0 is refused by the
decoder. -/
def Obligations.NopChangesNothing : Prop :=
  encode .nop = 0x00000000 ∧ (∀ w : Word, w.toNat < 2 ^ 24 → w ≠ 0 → decode w = .error .unusedFieldNonzero) ∧
  ∀ s : State, ∃ t, exec .nop s = .next t ∧ Succeeded [] [] 0 s t

/-- R121: CLRERR clears all seven sticky flags and LASTERR, answers 0 and changes no other state. -/
def Obligations.ClrerrClearsTheRecord : Prop :=
  encode .clrerr = 0x01000000 ∧
  ∀ s : State, ∃ t, exec .clrerr s = .next t ∧ t.errs = 0 ∧ t.lastErr = 0 ∧ RegistersExcept [] [] s t ∧
    SameControl s t ∧ t.responses = s.responses ++ [0x00000000]

/-- R122, with the layouts of R18 and R19: CSRRD 0 returns STATUS and CSRRD 1 returns LIMITS, neither changes any
state, and every other number raises IllegalCommand. -/
def Obligations.CsrrdReadsStatusAndLimits : Prop :=
  (∀ n : Byte, (encode (.csrrd n)).toNat = 0x02000000 + n.toNat) ∧
  ∀ s : State,
    (∃ t data, exec (.csrrd 0) s = .next t ∧ Succeeded [] [] data s t ∧
      data.toNat = s.tblReady.toNat + s.errs.toNat * 2 + s.lastErr.toNat * 2 ^ 8) ∧
    (∃ t data, exec (.csrrd 1) s = .next t ∧ Succeeded [] [] data s t ∧
      data.toNat = s.lmax.val + 8 * 2 ^ 8 + 4 * 2 ^ 12) ∧
    (∀ n : Byte, 2 ≤ n.toNat → ∃ t, exec (.csrrd n) s = .next t ∧ Failed .illegalCommand s t)

/-- R123: SLI loads the immediate into its destination. -/
def Obligations.SliLoadsTheImmediate : Prop :=
  ∀ (d : SReg) (v : Byte) (s : State),
    (encode (.sli d v)).toNat = 0x08000000 + d.val * 2 ^ 20 + v.toNat ∧
    ∃ t, exec (.sli d v) s = .next t ∧ t.S d = v ∧ Succeeded [d] [] 0 s t

/-- R124: SRD returns the register and changes no state. -/
def Obligations.SrdReturnsTheRegister : Prop :=
  ∀ (a : SReg) (s : State),
    (encode (.srd a)).toNat = 0x09000000 + a.val * 2 ^ 16 ∧
    ∃ t data, exec (.srd a) s = .next t ∧ Succeeded [] [] data s t ∧ data.toNat = (s.S a).toNat

/-! ## Field commands -/

/-- R67, R68: GFADD and GFSUB both write the exclusive-or of their sources as they were before the command. -/
def Obligations.GfaddAndGfsubWriteTheExclusiveOr : Prop :=
  ∀ (d a b : SReg) (s : State),
    (encode (.gfadd d a b)).toNat = 0x10000000 + d.val * 2 ^ 20 + a.val * 2 ^ 16 + b.val * 2 ^ 12 ∧
    (encode (.gfsub d a b)).toNat = 0x11000000 + d.val * 2 ^ 20 + a.val * 2 ^ 16 + b.val * 2 ^ 12 ∧
    (∃ t, exec (.gfadd d a b) s = .next t ∧ t.S d = s.S a ^^^ s.S b ∧ Succeeded [d] [] 0 s t) ∧
    (∃ t, exec (.gfsub d a b) s = .next t ∧ t.S d = s.S a ^^^ s.S b ∧ Succeeded [d] [] 0 s t)

/-- R69: GFMUL writes the field product of its sources. -/
def Obligations.GfmulWritesTheProduct : Prop :=
  ∀ (d a b : SReg) (s : State),
    (encode (.gfmul d a b)).toNat = 0x12000000 + d.val * 2 ^ 20 + a.val * 2 ^ 16 + b.val * 2 ^ 12 ∧
    ∃ t, exec (.gfmul d a b) s = .next t ∧ t.S d = gfMul s.tables (s.S a) (s.S b) ∧ Succeeded [d] [] 0 s t

/-- R70: GFDIV with a nonzero divisor writes the quotient; with `S[b]` = 0 it raises DivisionByZero, whatever `S[a]`
is, and writes no register. -/
def Obligations.GfdivWritesTheQuotientOrFails : Prop :=
  ∀ (d a b : SReg) (s : State),
    (encode (.gfdiv d a b)).toNat = 0x13000000 + d.val * 2 ^ 20 + a.val * 2 ^ 16 + b.val * 2 ^ 12 ∧
    (s.S b ≠ 0 → ∃ t v, exec (.gfdiv d a b) s = .next t ∧ gfDiv s.tables (s.S a) (s.S b) = .ok v ∧ t.S d = v ∧
      Succeeded [d] [] 0 s t) ∧
    (s.S b = 0 → ∃ t, exec (.gfdiv d a b) s = .next t ∧ Failed .divisionByZero s t)

/-- R71, R72: GFPOW and GFPOWI write the power of `S[a]`, with the exponent `S[b]` or the immediate read as an unsigned
integer. -/
def Obligations.GfpowAndGfpowiWriteThePower : Prop :=
  ∀ (d a b : SReg) (n : Byte) (s : State),
    (encode (.gfpow d a b)).toNat = 0x14000000 + d.val * 2 ^ 20 + a.val * 2 ^ 16 + b.val * 2 ^ 12 ∧
    (encode (.gfpowi d a n)).toNat = 0x15000000 + d.val * 2 ^ 20 + a.val * 2 ^ 16 + n.toNat ∧
    (∃ t, exec (.gfpow d a b) s = .next t ∧ t.S d = gfPow s.tables (s.S a) (s.S b).toNat ∧ Succeeded [d] [] 0 s t) ∧
    (∃ t, exec (.gfpowi d a n) s = .next t ∧ t.S d = gfPow s.tables (s.S a) n.toNat ∧ Succeeded [d] [] 0 s t)

/-- R73: GFLOG writes `LOG[S[a]]` for a nonzero `S[a]` and raises DomainError for 0. -/
def Obligations.GflogReadsTheLogTable : Prop :=
  ∀ (d a : SReg) (s : State),
    (encode (.gflog d a)).toNat = 0x16000000 + d.val * 2 ^ 20 + a.val * 2 ^ 16 ∧
    (s.S a ≠ 0 → ∃ t, exec (.gflog d a) s = .next t ∧ (t.S d).toNat = s.tables.logAt (s.S a) ∧
      Succeeded [d] [] 0 s t) ∧
    (s.S a = 0 → ∃ t, exec (.gflog d a) s = .next t ∧ Failed .domainError s t)

/-- R74: GFALOG writes `ALOG[S[a]]` for an index 0..254 and raises DomainError for 255. -/
def Obligations.GfalogReadsTheAntilogTable : Prop :=
  ∀ (d a : SReg) (s : State),
    (encode (.gfalog d a)).toNat = 0x17000000 + d.val * 2 ^ 20 + a.val * 2 ^ 16 ∧
    (∀ i : Fin 255, (s.S a).toNat = i.val →
      ∃ t, exec (.gfalog d a) s = .next t ∧ t.S d = s.tables.alogAt i ∧ Succeeded [d] [] 0 s t) ∧
    (s.S a = 255 → ∃ t, exec (.gfalog d a) s = .next t ∧ Failed .domainError s t)

/-! ## Polynomial access commands -/

/-- R125: PCLR makes its register the empty polynomial. -/
def Obligations.PclrEmptiesTheRegister : Prop :=
  ∀ (d : PReg) (s : State),
    (encode (.pclr d)).toNat = 0x20000000 + d.val * 2 ^ 20 ∧
    ∃ t, exec (.pclr d) s = .next t ∧ t.P d = [] ∧ Succeeded [] [d] 0 s t

/-- R126, R127: PAPP and PAPPS append their coefficient at index `len`, and raise LengthOverflow on a register that
holds LMAX coefficients. -/
def Obligations.PappAndPappsAppendOrOverflow : Prop :=
  ∀ (d : PReg) (v : Byte) (a : SReg) (s : State),
    (encode (.papp d v)).toNat = 0x21000000 + d.val * 2 ^ 20 + v.toNat ∧
    (encode (.papps d a)).toNat = 0x22000000 + d.val * 2 ^ 20 + a.val * 2 ^ 16 ∧
    ((s.P d).length ≠ s.lmax.val →
      (∃ t, exec (.papp d v) s = .next t ∧ t.P d = s.P d ++ [v] ∧ Succeeded [] [d] 0 s t) ∧
      (∃ t, exec (.papps d a) s = .next t ∧ t.P d = s.P d ++ [s.S a] ∧ Succeeded [] [d] 0 s t)) ∧
    ((s.P d).length = s.lmax.val →
      (∃ t, exec (.papp d v) s = .next t ∧ Failed .lengthOverflow s t) ∧
      (∃ t, exec (.papps d a) s = .next t ∧ Failed .lengthOverflow s t))

/-- R128, R129: PRD returns and PGET copies coefficient `imm`, and both raise IndexRange for an index at or above the
length, always so for an empty register. -/
def Obligations.PrdAndPgetReadTheCoefficient : Prop :=
  ∀ (d : SReg) (a : PReg) (j : Byte) (s : State),
    (encode (.prd a j)).toNat = 0x23000000 + a.val * 2 ^ 16 + j.toNat ∧
    (encode (.pget d a j)).toNat = 0x24000000 + d.val * 2 ^ 20 + a.val * 2 ^ 16 + j.toNat ∧
    (∀ h : j.toNat < (s.P a).length,
      (∃ t data, exec (.prd a j) s = .next t ∧ Succeeded [] [] data s t ∧ data.toNat = ((s.P a)[j.toNat]).toNat) ∧
      (∃ t, exec (.pget d a j) s = .next t ∧ t.S d = (s.P a)[j.toNat] ∧ Succeeded [d] [] 0 s t)) ∧
    ((s.P a).length ≤ j.toNat →
      (∃ t, exec (.prd a j) s = .next t ∧ Failed .indexRange s t) ∧
      (∃ t, exec (.pget d a j) s = .next t ∧ Failed .indexRange s t))

/-- R130: PMOV copies the length and all coefficients. -/
def Obligations.PmovCopiesTheRegister : Prop :=
  ∀ (d a : PReg) (s : State),
    (encode (.pmov d a)).toNat = 0x27000000 + d.val * 2 ^ 20 + a.val * 2 ^ 16 ∧
    ∃ t, exec (.pmov d a) s = .next t ∧ t.P d = s.P a ∧ Succeeded [] [d] 0 s t

/-! ## Polynomial arithmetic commands -/

/-- R90, R91: PLEN returns the length and PDEG the length minus 1, 0xFFFF for the empty register, in every state whose
registers fit (R12). -/
def Obligations.PlenAndPdegReturnLengthAndDegree : Prop :=
  ∀ (a : PReg) (s : State), FitsCapacity s →
    (encode (.plen a)).toNat = 0x25000000 + a.val * 2 ^ 16 ∧
    (encode (.pdeg a)).toNat = 0x26000000 + a.val * 2 ^ 16 ∧
    (∃ t data, exec (.plen a) s = .next t ∧ Succeeded [] [] data s t ∧ data.toNat = (s.P a).length) ∧
    (∃ t data, exec (.pdeg a) s = .next t ∧ Succeeded [] [] data s t ∧ data.toInt = ((s.P a).length : Int) - 1 ∧
      (s.P a = [] → data = 0xFFFF))

/-- R86, R87: PADD and PSUB both write the polynomial sum, of length max(len a, len b), which does not exceed LMAX in a
state whose registers fit (R12). -/
def Obligations.PaddAndPsubWriteTheSum : Prop :=
  ∀ (d a b : PReg) (s : State),
    (encode (.padd d a b)).toNat = 0x28000000 + d.val * 2 ^ 20 + a.val * 2 ^ 16 + b.val * 2 ^ 12 ∧
    (encode (.psub d a b)).toNat = 0x29000000 + d.val * 2 ^ 20 + a.val * 2 ^ 16 + b.val * 2 ^ 12 ∧
    (∃ t, exec (.padd d a b) s = .next t ∧ t.P d = polyAdd (s.P a) (s.P b) ∧
      (t.P d).length = max (s.P a).length (s.P b).length ∧ (FitsCapacity s → (t.P d).length ≤ s.lmax.val) ∧
      Succeeded [] [d] 0 s t) ∧
    (∃ t, exec (.psub d a b) s = .next t ∧ t.P d = polyAdd (s.P a) (s.P b) ∧
      (t.P d).length = max (s.P a).length (s.P b).length ∧ (FitsCapacity s → (t.P d).length ≤ s.lmax.val) ∧
      Succeeded [] [d] 0 s t)

/-- R88: PMUL writes the polynomial product where it fits, always so with an empty operand, and raises LengthOverflow
where it does not. -/
def Obligations.PmulWritesTheProductOrOverflows : Prop :=
  ∀ (d a b : PReg) (s : State),
    (encode (.pmul d a b)).toNat = 0x2A000000 + d.val * 2 ^ 20 + a.val * 2 ^ 16 + b.val * 2 ^ 12 ∧
    ((s.P a = [] ∨ s.P b = [] ∨ (s.P a).length + (s.P b).length ≤ s.lmax.val + 1) →
      ∃ t, exec (.pmul d a b) s = .next t ∧ t.P d = polyMul s.tables (s.P a) (s.P b) ∧ Succeeded [] [d] 0 s t) ∧
    ((s.P a ≠ [] ∧ s.P b ≠ [] ∧ s.lmax.val + 1 < (s.P a).length + (s.P b).length) →
      ∃ t, exec (.pmul d a b) s = .next t ∧ Failed .lengthOverflow s t)

/-- R89: PDIVR raises IllegalCommand for equal destinations before it looks at the divisor, raises DivisionByZero for an
empty divisor or a leading coefficient 0, and otherwise writes quotient and remainder together. -/
def Obligations.PdivrWritesQuotientAndRemainderOrFails : Prop :=
  ∀ (q r a b : PReg) (s : State),
    (encode (.pdivr q r a b)).toNat =
      0x2B000000 + q.val * 2 ^ 20 + a.val * 2 ^ 16 + b.val * 2 ^ 12 + r.val * 2 ^ 8 ∧
    (q = r → ∃ t, exec (.pdivr q r a b) s = .next t ∧ Failed .illegalCommand s t) ∧
    (q ≠ r → (s.P b = [] ∨ (s.P b)[0]? = some 0) →
      ∃ t, exec (.pdivr q r a b) s = .next t ∧ Failed .divisionByZero s t) ∧
    (∀ c rest, q ≠ r → s.P b = c :: rest → c ≠ 0 →
      ∃ t v w, exec (.pdivr q r a b) s = .next t ∧ polyDivrem s.tables (s.P a) (s.P b) = .ok (v, w) ∧ t.P q = v ∧
        t.P r = w ∧ Succeeded [] [q, r] 0 s t)

/-- R92: PEVAL writes the value of the polynomial at `S[b]`. -/
def Obligations.PevalWritesTheValue : Prop :=
  ∀ (d : SReg) (a : PReg) (x : SReg) (s : State),
    (encode (.peval d a x)).toNat = 0x2C000000 + d.val * 2 ^ 20 + a.val * 2 ^ 16 + x.val * 2 ^ 12 ∧
    ∃ t, exec (.peval d a x) s = .next t ∧ t.S d = polyEval s.tables (s.P a) (s.S x) ∧ Succeeded [d] [] 0 s t

/-! ## Generator and encoder commands -/

/-- R101: GENPOLY writes the generator of degree n, raises InvalidDegree for n = 0, tested first, and LengthOverflow
where the n + 1 coefficients do not fit. -/
def Obligations.GenpolyWritesTheGeneratorOrFails : Prop :=
  ∀ (d : PReg) (n : Byte) (s : State),
    (encode (.genpoly d n)).toNat = 0x30000000 + d.val * 2 ^ 20 + n.toNat ∧
    (n = 0 → ∃ t, exec (.genpoly d n) s = .next t ∧ Failed .invalidDegree s t) ∧
    (n ≠ 0 → s.lmax.val < n.toNat + 1 → ∃ t, exec (.genpoly d n) s = .next t ∧ Failed .lengthOverflow s t) ∧
    (n ≠ 0 → n.toNat + 1 ≤ s.lmax.val →
      ∃ t, exec (.genpoly d n) s = .next t ∧ t.P d = genPoly s.tables n.toNat ∧ Succeeded [] [d] 0 s t)

/-- R110: PSHL appends n zero coefficients at the low-degree end where the result fits, and raises LengthOverflow
where it does not. -/
def Obligations.PshlAppendsZerosOrOverflows : Prop :=
  ∀ (d a : PReg) (n : Byte) (s : State),
    (encode (.pshl d a n)).toNat = 0x40000000 + d.val * 2 ^ 20 + a.val * 2 ^ 16 + n.toNat ∧
    ((s.P a).length + n.toNat ≤ s.lmax.val →
      ∃ t, exec (.pshl d a n) s = .next t ∧ t.P d = s.P a ++ List.replicate n.toNat 0 ∧ Succeeded [] [d] 0 s t) ∧
    (s.lmax.val < (s.P a).length + n.toNat → ∃ t, exec (.pshl d a n) s = .next t ∧ Failed .lengthOverflow s t)

/-- R112: RSENC raises InvalidInput for an empty message or n = 0, tested first, and LengthOverflow where the dividend
does not fit; with the tables filled every other RSENC writes the n codewords of `rs_encode`, and so raises neither
DivisionByZero nor InvalidDegree. -/
def Obligations.RsencWritesTheCodewordsOrFails : Prop :=
  ∀ (d a : PReg) (n : Byte) (s : State),
    (encode (.rsenc d a n)).toNat = 0x41000000 + d.val * 2 ^ 20 + a.val * 2 ^ 16 + n.toNat ∧
    ((s.P a = [] ∨ n = 0) → ∃ t, exec (.rsenc d a n) s = .next t ∧ Failed .invalidInput s t) ∧
    (s.P a ≠ [] → n ≠ 0 → s.lmax.val < (s.P a).length + n.toNat →
      ∃ t, exec (.rsenc d a n) s = .next t ∧ Failed .lengthOverflow s t) ∧
    (s.tables = tableContents → s.P a ≠ [] → n ≠ 0 → (s.P a).length + n.toNat ≤ s.lmax.val →
      ∃ t ecc, exec (.rsenc d a n) s = .next t ∧ rsEncode s.tables (s.P a) n.toNat = .ok ecc ∧ t.P d = ecc ∧
        ecc.length = n.toNat ∧ Succeeded [] [d] 0 s t)

/-! ## The tables and the field -/

/-- R61: the procedure of the rule gives the listed contents from tables with any contents, and on the listed contents
`LOG[ALOG[i]]` = i and `ALOG[LOG[v]]` = v. -/
def Obligations.TableProcedureGivesTheListing : Prop :=
  (∀ t : Tables, t.fill = tableContents) ∧
  (∀ i : Fin 255, tableContents.logAt (tableContents.alogAt i) = i.val ∧ tableContents.alogAt i ≠ 0) ∧
  (∀ v : Byte, v ≠ 0 → tableContents.alogAt (Fin.ofNat 255 (tableContents.logAt v)) = v)

/-- R63, R66: the product through the tables is the carry-less product reduced modulo 0x11D, for every pair. -/
def Obligations.TableProductIsReducedCarrylessProduct : Prop :=
  ∀ a b : Byte, gfMul tableContents a b = clmulReduce a b

/-- R75: the laws of the field operations. -/
def Obligations.FieldLawsHold : Prop :=
  (∀ a : Byte, gfAdd a a = 0 ∧ gfAdd a 0 = a) ∧
  (∀ a b : Byte, gfAdd a b = gfAdd b a) ∧
  (∀ a : Byte, a ≠ 0 → ∃ v, gfDiv tableContents 1 a = .ok v ∧ gfMul tableContents a v = 1) ∧
  (∀ a b : Byte, gfAdd (gfMul tableContents a b) (gfMul tableContents a b) = 0) ∧
  (∀ a : Byte, gfMul tableContents a 0 = 0 ∧ gfMul tableContents 0 a = 0 ∧ gfMul tableContents a 1 = a) ∧
  (∀ a b : Byte, gfMul tableContents a b = gfMul tableContents b a) ∧
  (∀ a b c : Byte, gfMul tableContents (gfMul tableContents a b) c = gfMul tableContents a (gfMul tableContents b c)) ∧
  (∀ a b c : Byte, gfMul tableContents a (gfAdd b c) = gfAdd (gfMul tableContents a b) (gfMul tableContents a c)) ∧
  (∀ a b : Byte, b ≠ 0 → ∃ v, gfDiv tableContents a b = .ok v ∧ gfMul tableContents v b = a) ∧
  (∀ a : Byte, a ≠ 0 → gfDiv tableContents a a = .ok 1) ∧
  (∀ a : Byte, gfDiv tableContents a 1 = .ok a) ∧
  (∀ a : Byte, a ≠ 0 → gfPow tableContents a 255 = 1) ∧
  (∀ n : Nat, gfPow tableContents 2 n = tableContents.alogAt (Fin.ofNat 255 n))

/-- R65: `gf_pow(a, 0)` = 1 for every a, `gf_pow(0, n)` = 0 for n >= 1, `gf_pow(a, 1)` = a, and for a nonzero a the
power is `ALOG[(LOG[a] * n) mod 255]` with the product unbounded. -/
def Obligations.PowerThroughTheTables : Prop :=
  (∀ a : Byte, gfPow tableContents a 0 = 1 ∧ gfPow tableContents a 1 = a) ∧
  (∀ n : Nat, 1 ≤ n → gfPow tableContents 0 n = 0) ∧
  (∀ (a : Byte) (n : Nat), a ≠ 0 →
    gfPow tableContents a n = tableContents.alogAt (Fin.ofNat 255 (tableContents.logAt a * n)))

/-! ## The polynomial functions -/

/-- R81: the sum has length max(len(p), len(q)) and coefficients of equal degree meet: counted from the constant term,
each is the exclusive-or of the operands' coefficients, 0 where an operand has none. Subtraction is the same. -/
def Obligations.SumAlignsConstantTerms : Prop :=
  ∀ p q : Poly,
    (polyAdd p q).length = max p.length q.length ∧
    (∀ j : Nat, (polyAdd p q).reverse.getD j 0 = p.reverse.getD j 0 ^^^ q.reverse.getD j 0) ∧
    polySub p q = polyAdd p q

/-- R82: the product with an empty operand is empty; otherwise it has length len(p) + len(q) - 1 and coefficient k is
the field sum of the products `p[i] * q[j]` with i + j = k, whatever the tables hold. -/
def Obligations.ProductIsTheConvolution : Prop :=
  ∀ (t : Tables) (p q : Poly),
    (p = [] ∨ q = [] → polyMul t p q = []) ∧
    (p ≠ [] → q ≠ [] →
      (polyMul t p q).length = p.length + q.length - 1 ∧
      ∀ k : Nat, k < p.length + q.length - 1 →
        (polyMul t p q)[k]? = some (fieldSum p.length fun i =>
          if i ≤ k ∧ k - i < q.length then gfMul t (p.getD i 0) (q.getD (k - i) 0) else 0))

/-- R83: DivisionByZero exactly for an empty divisor or a leading coefficient 0, and the lengths of quotient and
remainder, whatever the tables hold. -/
def Obligations.DivisionHasItsLengths : Prop :=
  ∀ (t : Tables) (p d : Poly),
    ((d = [] ∨ d[0]? = some 0) → polyDivrem t p d = .error .divisionByZero) ∧
    (∀ c ds, d = c :: ds → c ≠ 0 → ∃ q r, polyDivrem t p d = .ok (q, r) ∧
      (d.length ≤ p.length → q.length = p.length - d.length + 1 ∧ r.length = d.length - 1) ∧
      (p.length < d.length → q = [] ∧ r = p))

/-- R93: multiply(quotient, d) + remainder is the dividend as a sequence, the remainder is shorter than the divisor, and
dividend and remainder agree at every root of the divisor. -/
def Obligations.DivisionRoundTrip : Prop :=
  ∀ (p d : Poly) (c : Byte) (ds : Poly), d = c :: ds → c ≠ 0 →
    ∃ q r, polyDivrem tableContents p d = .ok (q, r) ∧
      polyAdd (polyMul tableContents q d) r = p ∧ r.length < d.length ∧
      ∀ x : Byte, polyEval tableContents d x = 0 → polyEval tableContents p x = polyEval tableContents r x

/-- R85: Horner's value is the field sum of `p[j] * x^(len(p)-1-j)`; 0 for the empty polynomial; the constant term at 0;
the exclusive-or of all coefficients at 1; leading zeros do not change it. -/
def Obligations.EvaluationIsTheSumOfPowers : Prop :=
  (∀ (p : Poly) (x : Byte), polyEval tableContents p x = fieldSum p.length fun j =>
    gfMul tableContents (p.getD j 0) (gfPow tableContents x (p.length - 1 - j))) ∧
  (∀ x : Byte, polyEval tableContents [] x = 0) ∧
  (∀ (p : Poly) (c : Byte), polyEval tableContents (p ++ [c]) 0 = c) ∧
  (∀ p : Poly, polyEval tableContents p 1 = fieldSum p.length fun j => p.getD j 0) ∧
  (∀ (p : Poly) (x : Byte), polyEval tableContents (0 :: p) x = polyEval tableContents p x)

/-- R102: the generator of degree n >= 1 has n + 1 coefficients, leading coefficient 1, the roots α^0 .. α^(n-1), and the
constant term `ALOG[(n*(n-1)/2) mod 255]`. -/
def Obligations.GeneratorHasItsRoots : Prop :=
  ∀ n : Nat, 1 ≤ n →
    (genPoly tableContents n).length = n + 1 ∧
    (genPoly tableContents n)[0]? = some 1 ∧
    (∀ i : Nat, i < n → polyEval tableContents (genPoly tableContents n) (gfPow tableContents 2 i) = 0) ∧
    (genPoly tableContents n)[n]? = some (tableContents.alogAt (Fin.ofNat 255 (n * (n - 1) / 2)))

/-- R112, R113, R115: for a non-empty message and n >= 1 the encoder gives exactly n codewords, also for n >= len(m); the message
with its codewords divided by the generator leaves n zeros and is 0 at α^0 .. α^(n-1); for n = 1 the codeword is the
exclusive-or of the message; a leading zero byte does not change the result (R112); the encoder is linear. -/
def Obligations.CodewordsCompleteTheMessage : Prop :=
  (∀ (m : Poly) (n : Nat), m ≠ [] → 1 ≤ n →
    ∃ ecc, rsEncode tableContents m n = .ok ecc ∧ ecc.length = n ∧
      (∃ q, polyDivrem tableContents (m ++ ecc) (genPoly tableContents n) = .ok (q, List.replicate n 0)) ∧
      (∀ i : Nat, i < n → polyEval tableContents (m ++ ecc) (gfPow tableContents 2 i) = 0) ∧
      (n = 1 → ecc = [fieldSum m.length fun j => m.getD j 0])) ∧
  (∀ (m : Poly) (n : Nat), m ≠ [] → 1 ≤ n → rsEncode tableContents (0 :: m) n = rsEncode tableContents m n) ∧
  (∀ (m₁ m₂ : Poly) (n : Nat) (e₁ e₂ : Poly), m₁.length = m₂.length →
    rsEncode tableContents m₁ n = .ok e₁ → rsEncode tableContents m₂ n = .ok e₂ →
    rsEncode tableContents (List.zipWith gfAdd m₁ m₂) n = .ok (List.zipWith gfAdd e₁ e₂))

/-- R114: GENPOLY, PSHL and PDIVR leave in the remainder register what RSENC leaves in its destination, for any registers
where the generator is not overwritten and does not overwrite the message. The sequence does not check the message: for
an empty one it leaves n zeros, and with n = 0 GENPOLY raises InvalidDegree. -/
def Obligations.SeparateCommandsEncodeLikeRsenc : Prop :=
  ∀ (d a g p q r : PReg) (n : Byte) (s : State),
    s.tables = tableContents → g ≠ a → g ≠ p → q ≠ r →
    (n ≠ 0 → s.P a ≠ [] → (s.P a).length + n.toNat ≤ s.lmax.val →
      ∃ t u, exec (.rsenc d a n) s = .next t ∧
        execAll [.genpoly g n, .pshl p a n, .pdivr q r p g] s = .next u ∧ u.P r = t.P d) ∧
    (n ≠ 0 → s.P a = [] → n.toNat + 1 ≤ s.lmax.val →
      ∃ u, execAll [.genpoly g n, .pshl p a n, .pdivr q r p g] s = .next u ∧ u.P r = List.replicate n.toNat 0) ∧
    (n = 0 → ∃ t, exec (.genpoly g n) s = .next t ∧ Failed .invalidDegree s t)

/-! ## Pseudo-instructions -/

/-- R56: PLOAD leaves its list in the register, the first value at index 0, answers OK to each of its m + 1 commands and
changes nothing else, whatever the register held. -/
def Obligations.PloadLoadsItsList : Prop :=
  ∀ (d : PReg) (vs : List Byte) (s : State), vs.length ≤ s.lmax.val →
    ∃ t, execAll (Pseudo.pload d vs).expand s = .next t ∧ t.P d = vs ∧ RegistersExcept [] [d] s t ∧
      SameControl s t ∧ SameStatus s t ∧ t.responses = s.responses ++ List.replicate (vs.length + 1) 0

/-- R56: GFINV leaves the inverse of a nonzero `S[a]` in another register, and of 0 raises DivisionByZero with 1 left in
the destination; SMOV copies a scalar register; GFXOR writes the exclusive-or. -/
def Obligations.ScalarPseudosDoWhatTheySay : Prop :=
  ∀ (d a b : SReg) (s : State), s.tables = tableContents →
    (d ≠ a → s.S a ≠ 0 → ∃ t, execAll (Pseudo.gfinv d a).expand s = .next t ∧
      gfMul tableContents (s.S a) (t.S d) = 1 ∧ RegistersExcept [d] [] s t ∧ SameControl s t ∧ SameStatus s t) ∧
    (d ≠ a → s.S a = 0 → ∃ t, execAll (Pseudo.gfinv d a).expand s = .next t ∧
      t.S d = 1 ∧ t.lastErr = ErrorKind.divisionByZero.code ∧ RegistersExcept [d] [] s t) ∧
    (∃ t, execAll (Pseudo.smov d a).expand s = .next t ∧ t.S d = s.S a ∧ Succeeded [d] [] 0 s t) ∧
    (∃ t, execAll (Pseudo.gfxor d a b).expand s = .next t ∧ t.S d = s.S a ^^^ s.S b ∧ Succeeded [d] [] 0 s t)
end

