-- ==== Sys2Proof/Laws/Encoding.lean ====
section
/-! SUPPORT. The bit fields of the command word: what `pack` puts in is what the field readers take out, and the
numeric value of a word (R45). -/

namespace Sys2Proof

@[simp] theorem opField_pack (op : Byte) (f : Fields) : opField (pack op f) = op := by
  simp only [opField, pack]
  ext i hi
  simp only [BitVec.getElem_extractLsb', BitVec.getLsbD_append]
  have : ¬ (24 + i < 8) ∧ ¬ (24 + i - 8 < 4) ∧ ¬ (24 + i - 8 - 4 < 4) ∧ ¬ (24 + i - 8 - 4 - 4 < 4) ∧
      ¬ (24 + i - 8 - 4 - 4 - 4 < 4) ∧ 24 + i - 8 - 4 - 4 - 4 - 4 = i := by omega
  simp [this, BitVec.getLsbD_eq_getElem hi]

theorem fieldsOf_d (op : Byte) (f : Fields) : (fieldsOf (pack op f)).d = f.d := by
  simp only [fieldsOf, pack]
  ext i hi
  simp only [BitVec.getElem_extractLsb', BitVec.getLsbD_append]
  have : ¬ (20 + i < 8) ∧ ¬ (20 + i - 8 < 4) ∧ ¬ (20 + i - 8 - 4 < 4) ∧ ¬ (20 + i - 8 - 4 - 4 < 4) ∧
      (20 + i - 8 - 4 - 4 - 4 < 4) ∧ 20 + i - 8 - 4 - 4 - 4 = i := by omega
  simp [this, hi]

theorem fieldsOf_a (op : Byte) (f : Fields) : (fieldsOf (pack op f)).a = f.a := by
  simp only [fieldsOf, pack]
  ext i hi
  simp only [BitVec.getElem_extractLsb', BitVec.getLsbD_append]
  have : ¬ (16 + i < 8) ∧ ¬ (16 + i - 8 < 4) ∧ ¬ (16 + i - 8 - 4 < 4) ∧ (16 + i - 8 - 4 - 4 < 4) ∧
      16 + i - 8 - 4 - 4 = i := by omega
  simp [this, hi]

theorem fieldsOf_b (op : Byte) (f : Fields) : (fieldsOf (pack op f)).b = f.b := by
  simp only [fieldsOf, pack]
  ext i hi
  simp only [BitVec.getElem_extractLsb', BitVec.getLsbD_append]
  have : ¬ (12 + i < 8) ∧ ¬ (12 + i - 8 < 4) ∧ (12 + i - 8 - 4 < 4) ∧ 12 + i - 8 - 4 = i := by omega
  simp [this, hi]

theorem fieldsOf_e (op : Byte) (f : Fields) : (fieldsOf (pack op f)).e = f.e := by
  simp only [fieldsOf, pack]
  ext i hi
  simp only [BitVec.getElem_extractLsb', BitVec.getLsbD_append]
  have : ¬ (8 + i < 8) ∧ (8 + i - 8 < 4) ∧ 8 + i - 8 = i := by omega
  simp [this, hi]

theorem fieldsOf_imm (op : Byte) (f : Fields) : (fieldsOf (pack op f)).imm = f.imm := by
  simp only [fieldsOf, pack]
  ext i hi
  simp only [BitVec.getElem_extractLsb', BitVec.getLsbD_append]
  simp [hi]

/-- The field readers take out what `pack` put in. -/
@[simp] theorem fieldsOf_pack (op : Byte) (f : Fields) : fieldsOf (pack op f) = f := by
  have h1 := fieldsOf_d op f
  have h2 := fieldsOf_a op f
  have h3 := fieldsOf_b op f
  have h4 := fieldsOf_e op f
  have h5 := fieldsOf_imm op f
  cases f
  simp only [fieldsOf] at *
  simp [*]

/-- "The word's numeric value" (R45). -/
theorem pack_toNat (op : Byte) (f : Fields) :
    (pack op f).toNat = op.toNat * 2 ^ 24 + f.d.toNat * 2 ^ 20 + f.a.toNat * 2 ^ 16 + f.b.toNat * 2 ^ 12 +
      f.e.toNat * 2 ^ 8 + f.imm.toNat := by
  simp only [pack, BitVec.toNat_append]
  rw [← Nat.shiftLeft_add_eq_or_of_lt f.imm.isLt, ← Nat.shiftLeft_add_eq_or_of_lt f.e.isLt,
    ← Nat.shiftLeft_add_eq_or_of_lt f.b.isLt, ← Nat.shiftLeft_add_eq_or_of_lt f.a.isLt,
    ← Nat.shiftLeft_add_eq_or_of_lt f.d.isLt]
  simp only [Nat.shiftLeft_eq]
  omega

/-- Every word is the pack of its fields. -/
theorem pack_opField_fieldsOf (w : Word) : pack (opField w) (fieldsOf w) = w := by
  apply BitVec.eq_of_toNat_eq
  have := w.isLt
  simp only [pack_toNat, opField, fieldsOf, BitVec.extractLsb'_toNat, Nat.shiftRight_eq_div_pow]
  omega

@[simp] theorem scalarOf_scalarSpec (r : SReg) : scalarOf (scalarSpec r) = r := by revert r; decide

@[simp] theorem polyOf_polySpec (k : PReg) : polyOf (polySpec k) = k := by revert k; decide

@[simp] theorem scalarSpec_toNat (r : SReg) : (scalarSpec r).toNat = r.val := by revert r; decide

@[simp] theorem polySpec_toNat (k : PReg) : (polySpec k).toNat = k.val := by revert k; decide

/-- A legal specifier is the one of the register it names. -/
theorem scalarSpec_scalarOf {v : BitVec 4} (h : v.toNat < 8) : scalarSpec (scalarOf v) = v := by
  revert v; decide

theorem polySpec_polyOf {v : BitVec 4} (h : v.toNat < 4) : polySpec (polyOf v) = v := by revert v; decide

/-- The opcode map has one row per opcode: its number leads back to it. -/
@[simp] theorem ofByte_code (o : Opcode) : Opcode.ofByte o.code = some o := by cases o <;> decide

/-- The number of an opcode found is the number looked up. -/
theorem code_of_ofByte {op : Byte} {o : Opcode} (h : Opcode.ofByte op = some o) : o.code = op := by
  have := List.find?_some h
  simpa using this

theorem opField_encode (i : Instr) : opField (encode i) = i.opcode.code := by simp [encode]

theorem fieldsOf_encode (i : Instr) : fieldsOf (encode i) = i.fields := by simp [encode]

/-- Masking packs field by field. -/
theorem pack_and (op m : Byte) (f g : Fields) :
    pack op f &&& pack m g =
      pack (op &&& m) ⟨f.d &&& g.d, f.a &&& g.a, f.b &&& g.b, f.e &&& g.e, f.imm &&& g.imm⟩ := by
  simp only [pack]
  apply BitVec.eq_of_getLsbD_eq
  intro i _
  simp only [BitVec.getLsbD_and, BitVec.getLsbD_append]
  repeat' split
  all_goals rfl

end Sys2Proof
end

