-- ==== Sys2Proof/Laws/State.lean ====
section
/-! SUPPORT. The small lemmas of the state: what each named update leaves in each field, and register reads after
register writes. -/

namespace Sys2Proof.Machine

variable (s : State)

/-! ## setS -/

@[simp] theorem State.setS_sreg (i : SReg) (v : Byte) : (s.setS i v).sreg = s.sreg.set i v := rfl
@[simp] theorem State.setS_preg (i : SReg) (v : Byte) : (s.setS i v).preg = s.preg := rfl
@[simp] theorem State.setS_tables (i : SReg) (v : Byte) : (s.setS i v).tables = s.tables := rfl
@[simp] theorem State.setS_tblReady (i : SReg) (v : Byte) : (s.setS i v).tblReady = s.tblReady := rfl
@[simp] theorem State.setS_errs (i : SReg) (v : Byte) : (s.setS i v).errs = s.errs := rfl
@[simp] theorem State.setS_lastErr (i : SReg) (v : Byte) : (s.setS i v).lastErr = s.lastErr := rfl
@[simp] theorem State.setS_lmax (i : SReg) (v : Byte) : (s.setS i v).lmax = s.lmax := rfl
@[simp] theorem State.setS_host (i : SReg) (v : Byte) : (s.setS i v).host = s.host := rfl
@[simp] theorem State.setS_responses (i : SReg) (v : Byte) : (s.setS i v).responses = s.responses := rfl

/-! ## setP -/

@[simp] theorem State.setP_sreg (k : PReg) (p : Poly) : (s.setP k p).sreg = s.sreg := rfl
@[simp] theorem State.setP_preg (k : PReg) (p : Poly) : (s.setP k p).preg = s.preg.set k p := rfl
@[simp] theorem State.setP_tables (k : PReg) (p : Poly) : (s.setP k p).tables = s.tables := rfl
@[simp] theorem State.setP_tblReady (k : PReg) (p : Poly) : (s.setP k p).tblReady = s.tblReady := rfl
@[simp] theorem State.setP_errs (k : PReg) (p : Poly) : (s.setP k p).errs = s.errs := rfl
@[simp] theorem State.setP_lastErr (k : PReg) (p : Poly) : (s.setP k p).lastErr = s.lastErr := rfl
@[simp] theorem State.setP_lmax (k : PReg) (p : Poly) : (s.setP k p).lmax = s.lmax := rfl
@[simp] theorem State.setP_host (k : PReg) (p : Poly) : (s.setP k p).host = s.host := rfl
@[simp] theorem State.setP_responses (k : PReg) (p : Poly) : (s.setP k p).responses = s.responses := rfl

/-! ## clearErrors -/

@[simp] theorem State.clearErrors_sreg : s.clearErrors.sreg = s.sreg := rfl
@[simp] theorem State.clearErrors_preg : s.clearErrors.preg = s.preg := rfl
@[simp] theorem State.clearErrors_tables : s.clearErrors.tables = s.tables := rfl
@[simp] theorem State.clearErrors_tblReady : s.clearErrors.tblReady = s.tblReady := rfl
@[simp] theorem State.clearErrors_errs : s.clearErrors.errs = 0 := rfl
@[simp] theorem State.clearErrors_lastErr : s.clearErrors.lastErr = 0 := rfl
@[simp] theorem State.clearErrors_lmax : s.clearErrors.lmax = s.lmax := rfl
@[simp] theorem State.clearErrors_host : s.clearErrors.host = s.host := rfl
@[simp] theorem State.clearErrors_responses : s.clearErrors.responses = s.responses := rfl

/-! ## respond -/

@[simp] theorem State.respond_sreg (data : Half) : (s.respond data).sreg = s.sreg := rfl
@[simp] theorem State.respond_preg (data : Half) : (s.respond data).preg = s.preg := rfl
@[simp] theorem State.respond_tables (data : Half) : (s.respond data).tables = s.tables := rfl
@[simp] theorem State.respond_tblReady (data : Half) : (s.respond data).tblReady = s.tblReady := rfl
@[simp] theorem State.respond_errs (data : Half) : (s.respond data).errs = s.errs := rfl
@[simp] theorem State.respond_lastErr (data : Half) : (s.respond data).lastErr = s.lastErr := rfl
@[simp] theorem State.respond_lmax (data : Half) : (s.respond data).lmax = s.lmax := rfl
@[simp] theorem State.respond_host (data : Half) : (s.respond data).host = s.host := rfl
@[simp] theorem State.respond_responses (data : Half) : (s.respond data).responses = s.responses ++ [responseWord 0 data] := rfl

/-! ## raise -/

@[simp] theorem State.raise_sreg (k : ErrorKind) : (s.raise k).sreg = s.sreg := rfl
@[simp] theorem State.raise_preg (k : ErrorKind) : (s.raise k).preg = s.preg := rfl
@[simp] theorem State.raise_tables (k : ErrorKind) : (s.raise k).tables = s.tables := rfl
@[simp] theorem State.raise_tblReady (k : ErrorKind) : (s.raise k).tblReady = s.tblReady := rfl
@[simp] theorem State.raise_errs (k : ErrorKind) : (s.raise k).errs = setSticky s.errs k := rfl
@[simp] theorem State.raise_lastErr (k : ErrorKind) : (s.raise k).lastErr = k.code := rfl
@[simp] theorem State.raise_lmax (k : ErrorKind) : (s.raise k).lmax = s.lmax := rfl
@[simp] theorem State.raise_host (k : ErrorKind) : (s.raise k).host = s.host := rfl
@[simp] theorem State.raise_responses (k : ErrorKind) : (s.raise k).responses = s.responses ++ [responseWord k.code 0] := rfl

/-! ## tableInit -/

@[simp] theorem State.tableInit_sreg : s.tableInit.sreg = s.sreg := rfl
@[simp] theorem State.tableInit_preg : s.tableInit.preg = s.preg := rfl
@[simp] theorem State.tableInit_tables : s.tableInit.tables = tableContents := rfl
@[simp] theorem State.tableInit_tblReady : s.tableInit.tblReady = true := rfl
@[simp] theorem State.tableInit_errs : s.tableInit.errs = s.errs := rfl
@[simp] theorem State.tableInit_lastErr : s.tableInit.lastErr = s.lastErr := rfl
@[simp] theorem State.tableInit_lmax : s.tableInit.lmax = s.lmax := rfl
@[simp] theorem State.tableInit_host : s.tableInit.host = s.host := rfl
@[simp] theorem State.tableInit_responses : s.tableInit.responses = s.responses := rfl

/-! ## consume -/

@[simp] theorem State.consume_sreg (rest : List HostEvent) : (s.consume rest).sreg = s.sreg := rfl
@[simp] theorem State.consume_preg (rest : List HostEvent) : (s.consume rest).preg = s.preg := rfl
@[simp] theorem State.consume_tables (rest : List HostEvent) : (s.consume rest).tables = s.tables := rfl
@[simp] theorem State.consume_tblReady (rest : List HostEvent) : (s.consume rest).tblReady = s.tblReady := rfl
@[simp] theorem State.consume_errs (rest : List HostEvent) : (s.consume rest).errs = s.errs := rfl
@[simp] theorem State.consume_lastErr (rest : List HostEvent) : (s.consume rest).lastErr = s.lastErr := rfl
@[simp] theorem State.consume_lmax (rest : List HostEvent) : (s.consume rest).lmax = s.lmax := rfl
@[simp] theorem State.consume_host (rest : List HostEvent) : (s.consume rest).host = rest := rfl
@[simp] theorem State.consume_responses (rest : List HostEvent) : (s.consume rest).responses = s.responses := rfl

/-! ## applyReset -/

@[simp] theorem State.applyReset_sreg : s.applyReset.sreg = Vector.replicate 8 0 := rfl
@[simp] theorem State.applyReset_preg : s.applyReset.preg = Vector.replicate 4 [] := rfl
@[simp] theorem State.applyReset_tables : s.applyReset.tables = State.reset.tables := rfl
@[simp] theorem State.applyReset_tblReady : s.applyReset.tblReady = false := rfl
@[simp] theorem State.applyReset_errs : s.applyReset.errs = 0 := rfl
@[simp] theorem State.applyReset_lastErr : s.applyReset.lastErr = 0 := rfl
@[simp] theorem State.applyReset_lmax : s.applyReset.lmax = s.lmax := rfl
@[simp] theorem State.applyReset_host : s.applyReset.host = s.host := rfl
@[simp] theorem State.applyReset_responses : s.applyReset.responses = s.responses := rfl

@[simp] theorem State.P_setS (i : SReg) (v : Byte) (r : PReg) : (s.setS i v).P r = s.P r := rfl
@[simp] theorem State.S_setP (k : PReg) (p : Poly) (r : SReg) : (s.setP k p).S r = s.S r := rfl
@[simp] theorem State.S_clearErrors (r : SReg) : s.clearErrors.S r = s.S r := rfl
@[simp] theorem State.P_clearErrors (r : PReg) : s.clearErrors.P r = s.P r := rfl
@[simp] theorem State.S_respond (data : Half) (r : SReg) : (s.respond data).S r = s.S r := rfl
@[simp] theorem State.P_respond (data : Half) (r : PReg) : (s.respond data).P r = s.P r := rfl
@[simp] theorem State.S_raise (k : ErrorKind) (r : SReg) : (s.raise k).S r = s.S r := rfl
@[simp] theorem State.P_raise (k : ErrorKind) (r : PReg) : (s.raise k).P r = s.P r := rfl
@[simp] theorem State.S_tableInit (r : SReg) : s.tableInit.S r = s.S r := rfl
@[simp] theorem State.P_tableInit (r : PReg) : s.tableInit.P r = s.P r := rfl
@[simp] theorem State.S_consume (rest : List HostEvent) (r : SReg) : (s.consume rest).S r = s.S r := rfl
@[simp] theorem State.P_consume (rest : List HostEvent) (r : PReg) : (s.consume rest).P r = s.P r := rfl

@[simp] theorem State.S_applyReset (r : SReg) : s.applyReset.S r = 0 := by simp [State.S]

@[simp] theorem State.P_applyReset (r : PReg) : s.applyReset.P r = [] := by simp [State.P]

/-! ## Reads after writes -/

theorem State.S_setS (i : SReg) (v : Byte) (r : SReg) : (s.setS i v).S r = if r = i then v else s.S r := by
  simp only [State.S, State.setS, Fin.getElem_fin, Vector.getElem_set, Fin.val_inj, eq_comm]

@[simp] theorem State.S_setS_self (i : SReg) (v : Byte) : (s.setS i v).S i = v := by simp [State.S_setS]

theorem State.S_setS_ne (i : SReg) (v : Byte) (r : SReg) (h : r ≠ i) : (s.setS i v).S r = s.S r := by
  simp [State.S_setS, h]

theorem State.P_setP (k : PReg) (p : Poly) (r : PReg) : (s.setP k p).P r = if r = k then p else s.P r := by
  simp only [State.P, State.setP, Fin.getElem_fin, Vector.getElem_set, Fin.val_inj, eq_comm]

@[simp] theorem State.P_setP_self (k : PReg) (p : Poly) : (s.setP k p).P k = p := by simp [State.P_setP]

theorem State.P_setP_ne (k : PReg) (p : Poly) (r : PReg) (h : r ≠ k) : (s.setP k p).P r = s.P r := by
  simp [State.P_setP, h]

/-! ## The state after reset -/

@[simp] theorem State.reset_S (r : SReg) : State.reset.S r = 0 := by simp [State.S, State.reset]

@[simp] theorem State.reset_P (r : PReg) : State.reset.P r = [] := by simp [State.P, State.reset]

end Sys2Proof.Machine
end

