-- ==== Sys2Proof/Laws/Ops.lean ====
section
/-! SUPPORT. What the shared operations can do: the end of a command, the STATUS record, the response word, and the
step of the machine, each said once. -/

namespace Sys2Proof.Machine

/-! ## The end of a command -/

@[simp] theorem deliver_error (s : State) (k : ErrorKind) : deliver s (.error k) = .next (s.raise k) := rfl

@[simp] theorem deliver_ok (s t : State) (data : Half) : deliver s (.ok (t, data)) = .next (t.respond data) := rfl

/-- Everything the end of a command can do. -/
theorem deliver_cases {s u : State} {r : Except ErrorKind (State × Half)} (h : deliver s r = .next u) :
    (∃ k, r = .error k ∧ u = s.raise k) ∨ (∃ t data, r = .ok (t, data) ∧ u = t.respond data) := by
  match r with
  | .error k => exact .inl ⟨k, rfl, by simpa using h.symm⟩
  | .ok (t, data) => exact .inr ⟨t, data, rfl, by simpa using h.symm⟩

/-- A command always ends in a next state. -/
theorem deliver_next (s : State) (r : Except ErrorKind (State × Half)) : ∃ t, deliver s r = .next t := by
  match r with
  | .error k => exact ⟨_, rfl⟩
  | .ok (t, data) => exact ⟨_, rfl⟩

/-- Every meaning is the end of a command: it answers with an error or with a state and data, and nothing else. -/
theorem exec_eq_deliver (i : Instr) (s : State) : ∃ r, exec i s = deliver s r := by
  cases i <;> first | exact ⟨.ok (_, _), rfl⟩ | exact ⟨_, rfl⟩

/-! ## The STATUS record -/

theorem code_pos (k : ErrorKind) : 1 ≤ k.code.toNat := by cases k <;> decide

theorem code_le_seven (k : ErrorKind) : k.code.toNat ≤ 7 := by cases k <;> decide

theorem code_injective {j k : ErrorKind} (h : j.code = k.code) : j = k := by
  cases j <;> cases k <;> first | rfl | exact absurd h (by decide)

theorem flagOf_setSticky (errs : BitVec 7) (j k : ErrorKind) :
    flagOf (setSticky errs k) j = (flagOf errs j || decide (j = k)) := by
  cases j <;> cases k <;> simp [flagOf, setSticky, ErrorKind.code]

@[simp] theorem flagOf_zero (k : ErrorKind) : flagOf 0 k = false := by simp [flagOf]

/-! ## The response word -/

theorem responseWord_toNat (code : BitVec 4) (data : Half) :
    (responseWord code data).toNat = code.toNat * 2 ^ 28 + data.toNat := by
  have := data.isLt
  have h0 : (code.toNat <<< 12 ||| 0) = code.toNat * 2 ^ 12 := by simp [Nat.shiftLeft_eq]
  simp only [responseWord, BitVec.toNat_append, BitVec.toNat_ofNat, Nat.zero_mod]
  rw [h0, ← Nat.shiftLeft_add_eq_or_of_lt this, Nat.shiftLeft_eq]
  omega

theorem responseWord_inj {c d : BitVec 4} {x y : Half} (h : responseWord c x = responseWord d y) : c = d ∧ x = y := by
  have h := congrArg BitVec.toNat h
  have hx := x.isLt
  have hy := y.isLt
  simp only [responseWord_toNat] at h
  exact ⟨BitVec.eq_of_toNat_eq (by omega), BitVec.eq_of_toNat_eq (by omega)⟩

theorem responseLayout_ok (data : Half) : ResponseLayout (responseWord 0 data) := by
  have := data.isLt
  have h0 : (0 : BitVec 4).toNat = 0 := rfl
  simp only [ResponseLayout, responseWord_toNat, h0]
  omega

theorem responseLayout_error (k : ErrorKind) : ResponseLayout (responseWord k.code 0) := by
  cases k <;> simp [ResponseLayout, responseWord_toNat, ErrorKind.code]

/-! ## A failing command -/

/-- Taking an error, said once: everything R142 says of it. -/
theorem raise_failed (s : State) (k : ErrorKind) : Failed k s (s.raise k) where
  registers := ⟨fun _ _ => rfl, fun _ _ => rfl⟩
  control := ⟨rfl, rfl, rfl, rfl⟩
  flagSet := by simp [flagOf_setSticky]
  otherFlags := fun j h => by simp [flagOf_setSticky, h]
  lastErr := rfl
  answered := by
    have h : responseWord k.code 0 = BitVec.ofNat 32 (k.code.toNat * 2 ^ 28) := by cases k <;> decide
    rw [← h]; rfl

/-! ## A succeeding command -/

/-- A command that writes nothing and answers with data. -/
theorem succeeded_respond (s : State) (data : Half) : Succeeded [] [] data s (s.respond data) where
  registers := ⟨fun _ _ => rfl, fun _ _ => rfl⟩
  control := ⟨rfl, rfl, rfl, rfl⟩
  status := ⟨rfl, rfl⟩
  answered := rfl

/-- A command that writes one scalar register. -/
theorem succeeded_setS (s : State) (d : SReg) (v : Byte) : Succeeded [d] [] 0 s ((s.setS d v).respond 0) where
  registers := ⟨fun i h => by simp [State.S_setS_ne s d v i (by simpa using h)], fun _ _ => rfl⟩
  control := ⟨rfl, rfl, rfl, rfl⟩
  status := ⟨rfl, rfl⟩
  answered := rfl

/-- A command that writes one polynomial register. -/
theorem succeeded_setP (s : State) (d : PReg) (p : Poly) : Succeeded [] [d] 0 s ((s.setP d p).respond 0) where
  registers := ⟨fun _ _ => rfl, fun k h => by simp [State.P_setP_ne s d p k (by simpa using h)]⟩
  control := ⟨rfl, rfl, rfl, rfl⟩
  status := ⟨rfl, rfl⟩
  answered := rfl

/-- PDIVR's two writes. -/
theorem succeeded_setP_setP (s : State) (q r : PReg) (x y : Poly) :
    Succeeded [] [q, r] 0 s (((s.setP q x).setP r y).respond 0) where
  registers := ⟨fun _ _ => rfl, fun k h => by
    obtain ⟨hq, hr⟩ : k ≠ q ∧ k ≠ r := by simpa using h
    simp [State.P_setP_ne _ _ _ _ hr, State.P_setP_ne _ _ _ _ hq]⟩
  control := ⟨rfl, rfl, rfl, rfl⟩
  status := ⟨rfl, rfl⟩
  answered := rfl

/-! ## The step -/

@[simp] theorem step_reset {s : State} {rest : List HostEvent} (h : s.host = .reset :: rest) :
    step s = .next (s.consume rest).applyReset := by simp [step, serve, h]

theorem step_tableInit {s : State} (hr : s.tblReady = false) (h : ∀ rest, s.host ≠ .reset :: rest) :
    step s = .next s.tableInit := by
  unfold step serve
  split <;> simp_all

theorem step_idle {s : State} (hr : s.tblReady = true) (h : s.host = []) : step s = .next s := by
  simp [step, serve, h, hr]

theorem step_command {s : State} {w : Word} {rest : List HostEvent} (hr : s.tblReady = true)
    (h : s.host = .command w :: rest) : step s = executeWord w (s.consume rest) := by simp [step, serve, h, hr]

theorem step_resetDuring {s : State} {w : Word} {rest : List HostEvent} (hr : s.tblReady = true)
    (h : s.host = .resetDuring w :: rest) : step s = .next (s.consume rest).applyReset := by
  simp [step, serve, h, hr]

/-- Everything a step of the machine can be. -/
theorem step_cases (s : State) :
    (∃ rest, s.host = .reset :: rest ∧ step s = .next (s.consume rest).applyReset) ∨
    (s.tblReady = false ∧ (∀ rest, s.host ≠ .reset :: rest) ∧ step s = .next s.tableInit) ∨
    (s.tblReady = true ∧ s.host = [] ∧ step s = .next s) ∨
    (s.tblReady = true ∧ ∃ w rest, s.host = .command w :: rest ∧ step s = executeWord w (s.consume rest)) ∨
    (s.tblReady = true ∧ ∃ w rest, s.host = .resetDuring w :: rest ∧
      step s = .next (s.consume rest).applyReset) := by
  match hh : s.host, hr : s.tblReady with
  | .reset :: rest, _ => exact .inl ⟨rest, rfl, step_reset hh⟩
  | [], false => exact .inr (.inl ⟨rfl, by simp, step_tableInit hr (by simp [hh])⟩)
  | .command _ :: _, false => exact .inr (.inl ⟨rfl, by simp, step_tableInit hr (by simp [hh])⟩)
  | .resetDuring _ :: _, false => exact .inr (.inl ⟨rfl, by simp, step_tableInit hr (by simp [hh])⟩)
  | [], true => exact .inr (.inr (.inl ⟨rfl, rfl, step_idle hr hh⟩))
  | .command w :: rest, true => exact .inr (.inr (.inr (.inl ⟨rfl, w, rest, rfl, step_command hr hh⟩)))
  | .resetDuring w :: rest, true =>
    exact .inr (.inr (.inr (.inr ⟨rfl, w, rest, rfl, step_resetDuring hr hh⟩)))

/-! ## Runs -/

@[simp] theorem run_zero (s : State) : run 0 s = .next s := rfl

/-- A run of n + 1 steps is one step and a run of n from where it leads. -/
theorem run_succ {n : Nat} {s t : State} (h : step s = .next t) : run (n + 1) s = run n t := by
  unfold run
  simp only [Host.Core.run]
  split
  · next _ e => cases h.symm.trans e; rfl
  · next _ e => cases h.symm.trans e
  · next _ e => cases h.symm.trans e

/-! ## The execution of a word -/

/-- Everything the execution of an accepted word can be. -/
theorem executeWord_cases (w : Word) (s : State) :
    (∃ e, decode w = .error e ∧ executeWord w s = .next (s.raise .illegalCommand)) ∨
    (∃ i, decode w = .ok i ∧ executeWord w s = exec i s) := by
  match h : decode w with
  | .error e => exact .inl ⟨e, rfl, by simp [executeWord, h]⟩
  | .ok i => exact .inr ⟨i, rfl, by simp [executeWord, h]⟩

end Sys2Proof.Machine
end

