-- ==== Sys2Proof/Laws/Functions.lean ====
section
/-! SUPPORT. The small lemmas of the field and polynomial functions and of the operations commands share: their
lengths, their easy values and everything each can answer. They hold for tables with any contents. -/

namespace Sys2Proof.Machine

/-! ## Field functions -/

@[simp] theorem gfMul_zero_left (t : Tables) (b : Byte) : gfMul t 0 b = 0 := by simp [gfMul]

@[simp] theorem gfMul_zero_right (t : Tables) (a : Byte) : gfMul t a 0 = 0 := by simp [gfMul]

theorem gfMul_of_ne_zero (t : Tables) {a b : Byte} (ha : a ≠ 0) (hb : b ≠ 0) :
    gfMul t a b = t.alogAt (Fin.ofNat 255 (t.logAt a + t.logAt b)) := if_neg (not_or.mpr ⟨ha, hb⟩)

@[simp] theorem gfPow_zero (t : Tables) (a : Byte) : gfPow t a 0 = 1 := rfl

theorem gfPow_succ (t : Tables) (a : Byte) (n : Nat) : gfPow t a (n + 1) = gfMul t (gfPow t a n) a := rfl

@[simp] theorem gfDiv_zero (t : Tables) (a : Byte) : gfDiv t a 0 = .error .divisionByZero := rfl

theorem gfDiv_of_ne_zero (t : Tables) (a : Byte) {b : Byte} (hb : b ≠ 0) : gfDiv t a b = .ok (gfQuo t a b) := if_neg hb

theorem logAt_lt (t : Tables) (v : Byte) : t.logAt v < 256 := BitVec.isLt _

/-! ## Sequences -/

@[simp] theorem length_zeros (n : Nat) : (zeros n).length = n := by simp [zeros]

@[simp] theorem length_padLeft (n : Nat) (p : Poly) : (padLeft n p).length = max n p.length := by
  simp [padLeft]; omega

theorem padLeft_of_le {n : Nat} {p : Poly} (h : n ≤ p.length) : padLeft n p = p := by
  simp [padLeft, zeros, Nat.sub_eq_zero_of_le h]

@[simp] theorem length_scale (t : Tables) (c : Byte) (p : Poly) : (scale t c p).length = p.length := by simp [scale]

@[simp] theorem length_xorAtFront (w v : Poly) : (xorAtFront w v).length = w.length := by
  fun_induction xorAtFront w v <;> simp_all

@[simp] theorem xorAtFront_nil (w : Poly) : xorAtFront w [] = w := by cases w <;> rfl

/-- Each coefficient after the turn. -/
theorem getElem?_xorAtFront (w v : Poly) (k : Nat) :
    (xorAtFront w v)[k]? = w[k]?.map fun x => if k < v.length then x ^^^ v.getD k 0 else x := by
  fun_induction xorAtFront w v generalizing k with
  | case1 w => simp
  | case2 => simp
  | case3 x w y v ih => cases k <;> simp [ih]

theorem length_polyAdd (p q : Poly) : (polyAdd p q).length = max p.length q.length := by
  simp [polyAdd]

theorem length_polySub (p q : Poly) : (polySub p q).length = max p.length q.length := by
  simp [polySub]

theorem length_mulTurns (t : Tables) (p : Poly) {q : Poly} (hq : q ≠ []) :
    (mulTurns t p q).length = p.length + q.length - 1 := by
  have := List.length_pos_iff.mpr hq
  induction p with
  | nil => simp [mulTurns]
  | cons c p ih => simp [mulTurns, ih]; omega

theorem polyMul_of_ne_nil (t : Tables) {p q : Poly} (hp : p ≠ []) (hq : q ≠ []) : polyMul t p q = mulTurns t p q := by
  simp [polyMul, hp, hq]

theorem length_polyMul (t : Tables) (p q : Poly) :
    (polyMul t p q).length = if p = [] ∨ q = [] then 0 else p.length + q.length - 1 := by
  by_cases h : p = [] ∨ q = []
  · rcases h with rfl | rfl <;> simp [polyMul]
  · obtain ⟨hp, hq⟩ := not_or.mp h
    rw [if_neg h, polyMul_of_ne_nil t hp hq, length_mulTurns t p hq]

theorem length_divTurns_rem_le (t : Tables) (d : Poly) (n : Nat) (w : Poly) :
    (divTurns t d n w).2.length ≤ w.length := by
  induction n generalizing w with
  | zero => simp [divTurns]
  | succ n ih =>
    rw [divTurns]
    split
    · simp
    · refine (ih _).trans ?_
      simp

theorem length_divTurns_quo_le (t : Tables) (d : Poly) (n : Nat) (w : Poly) :
    (divTurns t d n w).1.length ≤ n := by
  induction n generalizing w with
  | zero => simp [divTurns]
  | succ n ih =>
    rw [divTurns]
    split
    · simp
    · simpa using ih _

/-- Everything the division can answer. -/
theorem polyDivrem_cases (t : Tables) (p d : Poly) :
    ((d = [] ∨ d.headD 0 = 0) ∧ polyDivrem t p d = .error .divisionByZero) ∨
    (d ≠ [] ∧ d.headD 0 ≠ 0 ∧ polyDivrem t p d = .ok (divTurns t d p.length p)) := by
  by_cases h : d = [] ∨ d.headD 0 = 0
  · exact .inl ⟨h, by simp only [polyDivrem, List.length_eq_zero_iff, if_pos h]⟩
  · refine .inr ⟨fun h' => h (.inl h'), fun h' => h (.inr h'), ?_⟩
    simp only [polyDivrem, List.length_eq_zero_iff, if_neg h]

@[simp] theorem genPoly_zero (t : Tables) : genPoly t 0 = [1] := rfl

theorem genPoly_succ (t : Tables) (n : Nat) :
    genPoly t (n + 1) = polyMul t (genPoly t n) [1, gfPow t Config.alpha n] := rfl

/-- "degree n has exactly n+1 coefficients" (R102), whatever the tables hold. -/
theorem length_genPoly (t : Tables) (n : Nat) : (genPoly t n).length = n + 1 := by
  induction n with
  | zero => rfl
  | succ n ih =>
    have : genPoly t n ≠ [] := fun h => by simp [h] at ih
    rw [genPoly_succ, length_polyMul]
    simp [this, ih]

@[simp] theorem length_shiftLeft (p : Poly) (n : Nat) : (shiftLeft p n).length = p.length + n := by
  simp [shiftLeft]

/-! ## Shared operations of the commands -/

/-- Everything an append can answer. -/
theorem appendCoefficient_cases (d : PReg) (v : Byte) (s : State) :
    ((s.P d).length = s.lmax.val ∧ appendCoefficient d v s = .error .lengthOverflow) ∨
    ((s.P d).length ≠ s.lmax.val ∧ appendCoefficient d v s = .ok (s.setP d (s.P d ++ [v]), 0)) := by
  by_cases h : (s.P d).length = s.lmax.val
  · exact .inl ⟨h, by simp [appendCoefficient, h]⟩
  · exact .inr ⟨h, by simp [appendCoefficient, h]⟩

/-- Everything a coefficient read can answer. -/
theorem coefficientAt_cases (a : PReg) (j : Byte) (s : State) :
    ((s.P a).length ≤ j.toNat ∧ coefficientAt a j s = .error .indexRange) ∨
    (∃ h : j.toNat < (s.P a).length, coefficientAt a j s = .ok (s.P a)[j.toNat]) := by
  by_cases h : j.toNat < (s.P a).length
  · exact .inr ⟨h, by simp [coefficientAt, h]⟩
  · exact .inl ⟨by omega, by simp [coefficientAt, List.getElem?_eq_none (Nat.le_of_not_lt h)]⟩

/-! ## The invariant under the named operations -/

theorem fitsCapacity_setP {s : State} (h : FitsCapacity s) {k : PReg} {p : Poly} (hp : p.length ≤ s.lmax.val) :
    FitsCapacity (s.setP k p) := by
  intro r
  rw [State.P_setP]
  split
  · exact hp
  · exact h r

theorem statusConsistent_raise (s : State) (k : ErrorKind) : StatusConsistent (s.raise k) :=
  .inr ⟨k, rfl, by simp [flagOf_setSticky]⟩

theorem inv_raise {s : State} (h : Inv s) (k : ErrorKind) : Inv (s.raise k) :=
  ⟨h.fits, h.tables, statusConsistent_raise s k⟩

theorem inv_respond {s : State} (h : Inv s) (data : Half) : Inv (s.respond data) := ⟨h.fits, h.tables, h.status⟩

theorem inv_setS {s : State} (h : Inv s) (i : SReg) (v : Byte) : Inv (s.setS i v) := ⟨h.fits, h.tables, h.status⟩

theorem inv_setP {s : State} (h : Inv s) {k : PReg} {p : Poly} (hp : p.length ≤ s.lmax.val) : Inv (s.setP k p) :=
  ⟨fitsCapacity_setP h.fits hp, h.tables, h.status⟩

theorem inv_clearErrors {s : State} (h : Inv s) : Inv s.clearErrors := ⟨h.fits, h.tables, .inl ⟨rfl, rfl⟩⟩

theorem inv_consume {s : State} (h : Inv s) (rest : List HostEvent) : Inv (s.consume rest) :=
  ⟨h.fits, h.tables, h.status⟩

theorem inv_tableInit {s : State} (h : Inv s) : Inv s.tableInit := ⟨h.fits, fun _ => rfl, h.status⟩

theorem inv_applyReset (s : State) : Inv s.applyReset where
  fits := fun k => by simp
  tables := fun h => by simp at h
  status := .inl ⟨rfl, rfl⟩

end Sys2Proof.Machine
end

