-- ==== Sys2Proof/Laws/PerInstr.lean ====
section
/-! SUPPORT. Statements for all commands, one lemma per constructor.

TableRow: the word of a command matches the row of the opcode table that carries its mnemonic (R49). -/

namespace Sys2Proof.Laws.TableRow

open Sys2Proof

/-- The word of the command matches a row of the opcode table with the command's mnemonic. -/
def Statement (i : Instr) : Prop :=
  ∃ row ∈ opcodeTable, row.mnemonic = i.opcode.mnemonic ∧ encode i &&& row.mask = row.matchBits

/-- The row whose mask packs as `m` and `g` matches a command whose masked fields are zero. -/
theorem of_row {i : Instr} (row : OpcodeRow) (m : Byte) (g : Fields) (hrow : row ∈ opcodeTable)
    (hname : row.mnemonic = i.opcode.mnemonic) (hmask : row.mask = pack m g)
    (hmatch : pack (i.opcode.code &&& m) ⟨i.fields.d &&& g.d, i.fields.a &&& g.a, i.fields.b &&& g.b,
      i.fields.e &&& g.e, i.fields.imm &&& g.imm⟩ = row.matchBits) : Statement i :=
  ⟨row, hrow, hname, by rw [hmask, encode, pack_and, hmatch]⟩

theorem nop : Statement (.nop) :=
  of_row ⟨"NOP", 0x00000000, 0xFFFFFFFF⟩ 0xFF ⟨0xf, 0xf, 0xf, 0xf, 0xff⟩ (by decide) rfl (by decide)
    (by simp [Instr.opcode, Instr.fields, Opcode.code, pack])

theorem clrerr : Statement (.clrerr) :=
  of_row ⟨"CLRERR", 0x01000000, 0xFFFFFFFF⟩ 0xFF ⟨0xf, 0xf, 0xf, 0xf, 0xff⟩ (by decide) rfl (by decide)
    (by simp [Instr.opcode, Instr.fields, Opcode.code, pack])

theorem csrrd (n : Byte) : Statement (.csrrd n) :=
  of_row ⟨"CSRRD", 0x02000000, 0xFFFFFF00⟩ 0xFF ⟨0xf, 0xf, 0xf, 0xf, 0x0⟩ (by decide) rfl (by decide)
    (by simp [Instr.opcode, Instr.fields, Opcode.code, pack])

theorem sli (d : SReg) (v : Byte) : Statement (.sli d v) :=
  of_row ⟨"SLI", 0x08000000, 0xFF0FFF00⟩ 0xFF ⟨0x0, 0xf, 0xf, 0xf, 0x0⟩ (by decide) rfl (by decide)
    (by simp [Instr.opcode, Instr.fields, Opcode.code, pack])

theorem srd (a : SReg) : Statement (.srd a) :=
  of_row ⟨"SRD", 0x09000000, 0xFFF0FFFF⟩ 0xFF ⟨0xf, 0x0, 0xf, 0xf, 0xff⟩ (by decide) rfl (by decide)
    (by simp [Instr.opcode, Instr.fields, Opcode.code, pack])

theorem gfadd (d a b : SReg) : Statement (.gfadd d a b) :=
  of_row ⟨"GFADD", 0x10000000, 0xFF000FFF⟩ 0xFF ⟨0x0, 0x0, 0x0, 0xf, 0xff⟩ (by decide) rfl (by decide)
    (by simp [Instr.opcode, Instr.fields, Opcode.code, pack])

theorem gfsub (d a b : SReg) : Statement (.gfsub d a b) :=
  of_row ⟨"GFSUB", 0x11000000, 0xFF000FFF⟩ 0xFF ⟨0x0, 0x0, 0x0, 0xf, 0xff⟩ (by decide) rfl (by decide)
    (by simp [Instr.opcode, Instr.fields, Opcode.code, pack])

theorem gfmul (d a b : SReg) : Statement (.gfmul d a b) :=
  of_row ⟨"GFMUL", 0x12000000, 0xFF000FFF⟩ 0xFF ⟨0x0, 0x0, 0x0, 0xf, 0xff⟩ (by decide) rfl (by decide)
    (by simp [Instr.opcode, Instr.fields, Opcode.code, pack])

theorem gfdiv (d a b : SReg) : Statement (.gfdiv d a b) :=
  of_row ⟨"GFDIV", 0x13000000, 0xFF000FFF⟩ 0xFF ⟨0x0, 0x0, 0x0, 0xf, 0xff⟩ (by decide) rfl (by decide)
    (by simp [Instr.opcode, Instr.fields, Opcode.code, pack])

theorem gfpow (d a b : SReg) : Statement (.gfpow d a b) :=
  of_row ⟨"GFPOW", 0x14000000, 0xFF000FFF⟩ 0xFF ⟨0x0, 0x0, 0x0, 0xf, 0xff⟩ (by decide) rfl (by decide)
    (by simp [Instr.opcode, Instr.fields, Opcode.code, pack])

theorem gfpowi (d a : SReg) (n : Byte) : Statement (.gfpowi d a n) :=
  of_row ⟨"GFPOWI", 0x15000000, 0xFF00FF00⟩ 0xFF ⟨0x0, 0x0, 0xf, 0xf, 0x0⟩ (by decide) rfl (by decide)
    (by simp [Instr.opcode, Instr.fields, Opcode.code, pack])

theorem gflog (d a : SReg) : Statement (.gflog d a) :=
  of_row ⟨"GFLOG", 0x16000000, 0xFF00FFFF⟩ 0xFF ⟨0x0, 0x0, 0xf, 0xf, 0xff⟩ (by decide) rfl (by decide)
    (by simp [Instr.opcode, Instr.fields, Opcode.code, pack])

theorem gfalog (d a : SReg) : Statement (.gfalog d a) :=
  of_row ⟨"GFALOG", 0x17000000, 0xFF00FFFF⟩ 0xFF ⟨0x0, 0x0, 0xf, 0xf, 0xff⟩ (by decide) rfl (by decide)
    (by simp [Instr.opcode, Instr.fields, Opcode.code, pack])

theorem pclr (d : PReg) : Statement (.pclr d) :=
  of_row ⟨"PCLR", 0x20000000, 0xFF0FFFFF⟩ 0xFF ⟨0x0, 0xf, 0xf, 0xf, 0xff⟩ (by decide) rfl (by decide)
    (by simp [Instr.opcode, Instr.fields, Opcode.code, pack])

theorem papp (d : PReg) (v : Byte) : Statement (.papp d v) :=
  of_row ⟨"PAPP", 0x21000000, 0xFF0FFF00⟩ 0xFF ⟨0x0, 0xf, 0xf, 0xf, 0x0⟩ (by decide) rfl (by decide)
    (by simp [Instr.opcode, Instr.fields, Opcode.code, pack])

theorem papps (d : PReg) (a : SReg) : Statement (.papps d a) :=
  of_row ⟨"PAPPS", 0x22000000, 0xFF00FFFF⟩ 0xFF ⟨0x0, 0x0, 0xf, 0xf, 0xff⟩ (by decide) rfl (by decide)
    (by simp [Instr.opcode, Instr.fields, Opcode.code, pack])

theorem prd (a : PReg) (j : Byte) : Statement (.prd a j) :=
  of_row ⟨"PRD", 0x23000000, 0xFFF0FF00⟩ 0xFF ⟨0xf, 0x0, 0xf, 0xf, 0x0⟩ (by decide) rfl (by decide)
    (by simp [Instr.opcode, Instr.fields, Opcode.code, pack])

theorem pget (d : SReg) (a : PReg) (j : Byte) : Statement (.pget d a j) :=
  of_row ⟨"PGET", 0x24000000, 0xFF00FF00⟩ 0xFF ⟨0x0, 0x0, 0xf, 0xf, 0x0⟩ (by decide) rfl (by decide)
    (by simp [Instr.opcode, Instr.fields, Opcode.code, pack])

theorem plen (a : PReg) : Statement (.plen a) :=
  of_row ⟨"PLEN", 0x25000000, 0xFFF0FFFF⟩ 0xFF ⟨0xf, 0x0, 0xf, 0xf, 0xff⟩ (by decide) rfl (by decide)
    (by simp [Instr.opcode, Instr.fields, Opcode.code, pack])

theorem pdeg (a : PReg) : Statement (.pdeg a) :=
  of_row ⟨"PDEG", 0x26000000, 0xFFF0FFFF⟩ 0xFF ⟨0xf, 0x0, 0xf, 0xf, 0xff⟩ (by decide) rfl (by decide)
    (by simp [Instr.opcode, Instr.fields, Opcode.code, pack])

theorem pmov (d a : PReg) : Statement (.pmov d a) :=
  of_row ⟨"PMOV", 0x27000000, 0xFF00FFFF⟩ 0xFF ⟨0x0, 0x0, 0xf, 0xf, 0xff⟩ (by decide) rfl (by decide)
    (by simp [Instr.opcode, Instr.fields, Opcode.code, pack])

theorem padd (d a b : PReg) : Statement (.padd d a b) :=
  of_row ⟨"PADD", 0x28000000, 0xFF000FFF⟩ 0xFF ⟨0x0, 0x0, 0x0, 0xf, 0xff⟩ (by decide) rfl (by decide)
    (by simp [Instr.opcode, Instr.fields, Opcode.code, pack])

theorem psub (d a b : PReg) : Statement (.psub d a b) :=
  of_row ⟨"PSUB", 0x29000000, 0xFF000FFF⟩ 0xFF ⟨0x0, 0x0, 0x0, 0xf, 0xff⟩ (by decide) rfl (by decide)
    (by simp [Instr.opcode, Instr.fields, Opcode.code, pack])

theorem pmul (d a b : PReg) : Statement (.pmul d a b) :=
  of_row ⟨"PMUL", 0x2A000000, 0xFF000FFF⟩ 0xFF ⟨0x0, 0x0, 0x0, 0xf, 0xff⟩ (by decide) rfl (by decide)
    (by simp [Instr.opcode, Instr.fields, Opcode.code, pack])

theorem pdivr (q r a b : PReg) : Statement (.pdivr q r a b) :=
  of_row ⟨"PDIVR", 0x2B000000, 0xFF0000FF⟩ 0xFF ⟨0x0, 0x0, 0x0, 0x0, 0xff⟩ (by decide) rfl (by decide)
    (by simp [Instr.opcode, Instr.fields, Opcode.code, pack])

theorem peval (d : SReg) (a : PReg) (x : SReg) : Statement (.peval d a x) :=
  of_row ⟨"PEVAL", 0x2C000000, 0xFF000FFF⟩ 0xFF ⟨0x0, 0x0, 0x0, 0xf, 0xff⟩ (by decide) rfl (by decide)
    (by simp [Instr.opcode, Instr.fields, Opcode.code, pack])

theorem genpoly (d : PReg) (n : Byte) : Statement (.genpoly d n) :=
  of_row ⟨"GENPOLY", 0x30000000, 0xFF0FFF00⟩ 0xFF ⟨0x0, 0xf, 0xf, 0xf, 0x0⟩ (by decide) rfl (by decide)
    (by simp [Instr.opcode, Instr.fields, Opcode.code, pack])

theorem pshl (d a : PReg) (n : Byte) : Statement (.pshl d a n) :=
  of_row ⟨"PSHL", 0x40000000, 0xFF00FF00⟩ 0xFF ⟨0x0, 0x0, 0xf, 0xf, 0x0⟩ (by decide) rfl (by decide)
    (by simp [Instr.opcode, Instr.fields, Opcode.code, pack])

theorem rsenc (d a : PReg) (n : Byte) : Statement (.rsenc d a n) :=
  of_row ⟨"RSENC", 0x41000000, 0xFF00FF00⟩ 0xFF ⟨0x0, 0x0, 0xf, 0xf, 0x0⟩ (by decide) rfl (by decide)
    (by simp [Instr.opcode, Instr.fields, Opcode.code, pack])

end Sys2Proof.Laws.TableRow
end

