-- ==== Sys2Proof/Tests/Slice0.lean ====
section
/-! SUPPORT. The model's own tests. Expected values are the spec's: the examples of its rules and the vectors of
95_test_vectors.md, named in each comment. Last come witnesses: concrete states and operands that meet the
hypotheses of the statements, clause by clause. -/

namespace Sys2Proof.Tests

open Sys2Proof Sys2Proof.Machine

set_option maxRecDepth 8000

/-! ## Helpers -/

/-- The unit after reset and TableInit. -/
def ready : State := State.reset.tableInit

/-- The same with capacity LMAX = 2, the least legal one (R4). -/
def small : State := { ready with lmax := ⟨2, by decide⟩ }

/-- A ready unit with these two scalars. -/
def withS (x y : Byte) : State := (ready.setS 0 x).setS 1 y

/-- The state of an outcome. -/
def after : Host.Outcome State Fault Refusal → Option State
  | .next t => some t
  | .fault _ => none
  | .refused _ => none

/-- What a command leaves in a scalar register, with its response. -/
def scalarAfter (i : Instr) (s : State) (r : SReg) : Option (Byte × List Word) :=
  (after (exec i s)).map fun t => (t.S r, t.responses)

/-- What a command leaves in a polynomial register, with its response. -/
def polyAfter (i : Instr) (s : State) (k : PReg) : Option (Poly × List Word) :=
  (after (exec i s)).map fun t => (t.P k, t.responses)

/-- STATUS after a command, with its response. -/
def statusAfter (i : Instr) (s : State) : Option (Half × List Word) :=
  (after (exec i s)).map fun t => (t.statusWord, t.responses)

/-! ## WellFormed: the ill-formed terms it refuses (R52 step 4) -/

theorem test_wf_csrrd_two : (Instr.csrrd 2).wellFormed = false := by decide
theorem test_wf_csrrd_one : (Instr.csrrd 1).wellFormed = true := by decide
theorem test_wf_pdivr_equal_destinations : (Instr.pdivr 2 2 1 0).wellFormed = false := by decide
theorem test_wf_pdivr_different_destinations : (Instr.pdivr 2 3 1 0).wellFormed = true := by decide

/-! ## Decoding: one word per command, from the rules' examples -/

theorem test_decode_nop : decode 0x00000000 = .ok .nop := by decide
theorem test_decode_clrerr : decode 0x01000000 = .ok .clrerr := by decide
theorem test_decode_csrrd : decode 0x02000001 = .ok (.csrrd 1) := by decide
theorem test_decode_sli : decode 0x08300053 = .ok (.sli 3 0x53) := by decide
theorem test_decode_srd : decode 0x09030000 = .ok (.srd 3) := by decide
theorem test_decode_gfadd : decode 0x10201000 = .ok (.gfadd 2 0 1) := by decide
theorem test_decode_gfsub : decode 0x11201000 = .ok (.gfsub 2 0 1) := by decide
theorem test_decode_gfmul : decode 0x12201000 = .ok (.gfmul 2 0 1) := by decide
theorem test_decode_gfdiv : decode 0x13201000 = .ok (.gfdiv 2 0 1) := by decide
theorem test_decode_gfpow : decode 0x14201000 = .ok (.gfpow 2 0 1) := by decide
theorem test_decode_gfpowi : decode 0x15100019 = .ok (.gfpowi 1 0 25) := by decide
theorem test_decode_gflog : decode 0x16100000 = .ok (.gflog 1 0) := by decide
theorem test_decode_gfalog : decode 0x17100000 = .ok (.gfalog 1 0) := by decide
theorem test_decode_pclr : decode 0x20200000 = .ok (.pclr 2) := by decide
theorem test_decode_papp : decode 0x210000EC = .ok (.papp 0 0xEC) := by decide
theorem test_decode_papps : decode 0x22110000 = .ok (.papps 1 1) := by decide
theorem test_decode_prd : decode 0x23010001 = .ok (.prd 1 1) := by decide
theorem test_decode_pget : decode 0x24400005 = .ok (.pget 4 0 5) := by decide
theorem test_decode_plen : decode 0x25030000 = .ok (.plen 3) := by decide
theorem test_decode_pdeg : decode 0x26000000 = .ok (.pdeg 0) := by decide
theorem test_decode_pmov : decode 0x27300000 = .ok (.pmov 3 0) := by decide
theorem test_decode_padd : decode 0x28012000 = .ok (.padd 0 1 2) := by decide
theorem test_decode_psub : decode 0x29012000 = .ok (.psub 0 1 2) := by decide
theorem test_decode_pmul : decode 0x2A012000 = .ok (.pmul 0 1 2) := by decide
theorem test_decode_pdivr : decode 0x2B320100 = .ok (.pdivr 3 1 2 0) := by decide
theorem test_decode_peval : decode 0x2C001000 = .ok (.peval 0 0 1) := by decide
theorem test_decode_genpoly : decode 0x30000005 = .ok (.genpoly 0 5) := by decide
theorem test_decode_pshl : decode 0x40100002 = .ok (.pshl 1 0 2) := by decide
theorem test_decode_rsenc : decode 0x41100002 = .ok (.rsenc 1 0 2) := by decide

/-- Every register and the greatest immediate (V-E21's command with other operands, V-X6's bound). -/
theorem test_encode_last_registers : encode (.pget 7 3 255) = 0x247300FF := by decide

/-- Rejections by name: V-X1, V-X4, V-X5, V-X6, V-X7. -/
theorem test_decode_reserved : decode 0x03000000 = .error .reservedOpcode := by decide
theorem test_decode_unused_imm : decode 0x10123001 = .error .unusedFieldNonzero := by decide
theorem test_decode_unused_e : decode 0x00000100 = .error .unusedFieldNonzero := by decide
theorem test_decode_scalar_eight : decode 0x10801000 = .error .specifierOutOfRange := by decide
theorem test_decode_poly_four : decode 0x28400000 = .error .specifierOutOfRange := by decide

/-! ## Tables (V-T2, V-T5, V-T7) -/

theorem test_alog_first_reduction : tableContents.alogAt 8 = 0x1D := by decide
theorem test_alog_last : tableContents.alogAt 254 = 0x8E := by decide
theorem test_log_of_ff : tableContents.logAt 0xFF = 175 := by decide
theorem test_log_of_one : tableContents.logAt 1 = 0 := by decide

/-! ## Commands, one step each -/

/-- V-A1. -/
theorem test_nop : statusAfter .nop ready = some (0x0001, [0]) := by decide
/-- R121's example: STATUS = 0x0103 becomes 0x0001. -/
theorem test_clrerr : statusAfter .clrerr (ready.raise .divisionByZero) = some (0x0001, [0x10000000, 0]) := by decide
/-- V-A3. -/
theorem test_csrrd_limits : statusAfter (.csrrd 1) ready = some (0x0001, [0x000048FF]) := by decide
/-- V-X8. -/
theorem test_csrrd_two : statusAfter (.csrrd 2) ready = some (0x0781, [0x70000000]) := by decide
/-- V-A6. -/
theorem test_sli : scalarAfter (.sli 3 0x53) ready 3 = some (0x53, [0]) := by decide
/-- V-A7. -/
theorem test_srd : scalarAfter (.srd 3) (ready.setS 3 0x53) 3 = some (0x53, [0x00000053]) := by decide
/-- V-F8. -/
theorem test_gfadd : scalarAfter (.gfadd 2 0 1) (withS 0x53 0xCA) 2 = some (0x99, [0]) := by decide
/-- V-F5, source and destination the same. -/
theorem test_gfsub_self : scalarAfter (.gfsub 0 0 0) (withS 0x53 0) 0 = some (0x00, [0]) := by decide
/-- V-F8. -/
theorem test_gfmul : scalarAfter (.gfmul 2 0 1) (withS 0x53 0xCA) 2 = some (0x8F, [0]) := by decide
/-- V-F11: the sum 255 of logarithms reduces to 0. -/
theorem test_gfmul_wraps : scalarAfter (.gfmul 2 0 1) (withS 0x02 0x8E) 2 = some (0x01, [0]) := by decide
/-- V-F28. -/
theorem test_gfdiv : scalarAfter (.gfdiv 2 0 1) (withS 0xCA 0x53) 2 = some (0xEC, [0]) := by decide
/-- V-F35: the divisor is tested first. -/
theorem test_gfdiv_zero_by_zero : statusAfter (.gfdiv 2 0 1) ready = some (0x0103, [0x10000000]) := by decide
/-- V-F56. -/
theorem test_gfpow : scalarAfter (.gfpow 2 0 1) (withS 0x53 3) 2 = some (0xD0, [0]) := by decide
/-- V-F40. -/
theorem test_gfpowi_zero : scalarAfter (.gfpowi 1 0 0) ready 1 = some (0x01, [0]) := by decide
/-- V-F50. -/
theorem test_gfpowi : scalarAfter (.gfpowi 1 0 25) (withS 0x02 0) 1 = some (0x03, [0]) := by decide
/-- V-T8. -/
theorem test_gflog : scalarAfter (.gflog 1 0) (withS 0xFF 0) 1 = some (0xAF, [0]) := by decide
/-- V-T10. -/
theorem test_gflog_zero : statusAfter (.gflog 1 0) ready = some (0x0641, [0x60000000]) := by decide
/-- V-T12. -/
theorem test_gfalog : scalarAfter (.gfalog 1 0) (withS 0xFE 0) 1 = some (0x8E, [0]) := by decide
/-- V-T11. -/
theorem test_gfalog_255 : statusAfter (.gfalog 1 0) (withS 0xFF 0) = some (0x0641, [0x60000000]) := by decide
/-- R125. -/
theorem test_pclr : polyAfter (.pclr 2) (ready.setP 2 [1, 2]) 2 = some ([], [0]) := by decide
/-- R126's example. -/
theorem test_papp : polyAfter (.papp 0 0xEC) (ready.setP 0 [0x40]) 0 = some ([0x40, 0xEC], [0]) := by decide
/-- R126 on a full register (LMAX = 2). -/
theorem test_papp_full : statusAfter (.papp 0 1) (small.setP 0 [1, 2]) = some (0x0411, [0x40000000]) := by decide
/-- R127's example. -/
theorem test_papps : polyAfter (.papps 1 1) ((ready.setS 1 0x10).setP 1 [1]) 1 = some ([1, 0x10], [0]) := by decide
/-- R128's example. -/
theorem test_prd : polyAfter (.prd 1 1) (ready.setP 1 [0xF4, 0x58]) 1 = some ([0xF4, 0x58], [0x00000058]) := by decide
/-- V-A13: STATUS = 0x0521. -/
theorem test_prd_at_length : statusAfter (.prd 1 2) (ready.setP 1 [0xF4, 0x58]) = some (0x0521, [0x50000000]) := by
  decide
/-- V-A14. -/
theorem test_pget : scalarAfter (.pget 4 0 1) (ready.setP 0 [0x40, 0x53, 0]) 4 = some (0x53, [0]) := by decide
/-- V-P72. -/
theorem test_plen : statusAfter (.plen 0) (ready.setP 0 [0, 0, 5]) = some (0x0001, [0x00000003]) := by decide
/-- V-P70. -/
theorem test_pdeg_empty : statusAfter (.pdeg 0) ready = some (0x0001, [0x0000FFFF]) := by decide
/-- V-P72: leading zeros count. -/
theorem test_pdeg : statusAfter (.pdeg 0) (ready.setP 0 [0, 0, 5]) = some (0x0001, [0x00000002]) := by decide
/-- R130's example. -/
theorem test_pmov : polyAfter (.pmov 3 0) (ready.setP 0 [1, 3, 2]) 3 = some ([1, 3, 2], [0]) := by decide
/-- V-P1: aligned at the constant term. -/
theorem test_padd : polyAfter (.padd 0 1 2) ((ready.setP 1 [1, 2, 3]).setP 2 [4, 5]) 0 = some ([1, 6, 6], [0]) := by
  decide
/-- V-P3: not trimmed. -/
theorem test_psub : polyAfter (.psub 0 1 2) ((ready.setP 1 [0, 0, 5]).setP 2 [5]) 0 = some ([0, 0, 0], [0]) := by
  decide
/-- V-P12. -/
theorem test_pmul : polyAfter (.pmul 0 1 2) ((ready.setP 1 [3, 7]).setP 2 [5, 0, 9]) 0 =
    some ([0x0F, 0x1B, 0x1B, 0x3F], [0]) := by decide
/-- V-P15: an empty operand. -/
theorem test_pmul_empty : polyAfter (.pmul 0 1 2) (small.setP 2 [1, 2]) 0 = some ([], [0]) := by decide
/-- V-P30, the quotient. -/
theorem test_pdivr_quotient : polyAfter (.pdivr 3 1 2 0)
    ((ready.setP 2 [0x12, 0x34, 0x56, 0x78]).setP 0 [1, 3, 2]) 3 = some ([0x12, 0x02], [0]) := by decide
/-- V-P30, the remainder, written over the divisor's register. -/
theorem test_pdivr_remainder : polyAfter (.pdivr 3 0 2 0)
    ((ready.setP 2 [0x12, 0x34, 0x56, 0x78]).setP 0 [1, 3, 2]) 0 = some ([0x74, 0x7C], [0]) := by decide
/-- V-P61. -/
theorem test_peval : scalarAfter (.peval 0 0 1)
    ((ready.setP 0 [0x01, 0x1F, 0xC6, 0x3F, 0x93, 0x74]).setS 1 0x20) 0 = some (0x25, [0]) := by decide
/-- V-Q1, the source's own value. -/
theorem test_genpoly_five : polyAfter (.genpoly 0 5) ready 0 = some ([1, 31, 198, 63, 147, 116], [0]) := by decide
/-- V-G4. -/
theorem test_genpoly_zero : statusAfter (.genpoly 0 0) ready = some (0x0205, [0x20000000]) := by decide
/-- V-E30. -/
theorem test_pshl : polyAfter (.pshl 1 0 2) (ready.setP 0 [0x40, 0xEC]) 1 = some ([0x40, 0xEC, 0, 0], [0]) := by
  decide
/-- R110: a result of LMAX + 1 coefficients. -/
theorem test_pshl_overflow : statusAfter (.pshl 1 0 1) (small.setP 0 [1, 2]) = some (0x0411, [0x40000000]) := by decide
/-- V-E4. -/
theorem test_rsenc : polyAfter (.rsenc 1 0 4) (ready.setP 0 [0x12, 0x34]) 1 = some ([0x89, 0xA6, 0x8D, 0x84], [0]) := by
  decide
/-- V-E22: one error, InvalidInput. -/
theorem test_rsenc_empty : statusAfter (.rsenc 1 0 0) ready = some (0x0309, [0x30000000]) := by decide

/-! ## The step and the assembler -/

/-- R166: the first step after reset is TableInit. -/
theorem test_first_step : step State.reset = .next ready := rfl
/-- V-X9: PDIVR with equal destinations is IllegalCommand, before the empty divisor is looked at. -/
theorem test_step_pdivr_equal : (after (step (State.reset.withFetchWord 32 0x2B210200))).map State.statusWord =
    some 0x0781 := by decide
/-- V-X12: IllegalCommand wins over the zero divisor. -/
theorem test_step_illegal : (after (step (State.reset.withFetchWord 32 0x13281000))).map State.responses =
    some [0x70000000] := by decide
/-- R126's word as the first command after reset. -/
theorem test_step_runs_word : (after (step (State.reset.withFetchWord 32 0x210000EC))).map (fun t => t.P 0) =
    some [0xEC] := by decide
/-- R168: no response, and the registers at their reset values. -/
theorem test_step_reset_during : (after (step { ready.setS 0 7 with host := [.resetDuring 0x08000053] })).map
    (fun t => (t.S 0, t.responses, t.tblReady)) = some (0, [], false) := by decide
theorem test_table_word : decodeTableWord 32 0x2B000000 = some (.pdivr 0 0 0 0) := by decide
/-- R55: 41_polynomial.md's example text. -/
theorem test_asm_pdivr : asmText (.pdivr 3 1 2 0) = "PDIVR p3, p1, p2, p0" := by decide
theorem test_asm_gfpowi : asmText (.gfpowi 1 0 254) = "GFPOWI s1, s0, 254" := by decide
theorem test_expand_pload : (Pseudo.pload 1 [4, 5]).expand = [.pclr 1, .papp 1 4, .papp 1 5] := by decide
theorem test_pseudo_gfinv_same_register : (Pseudo.gfinv 2 2).wellFormed ready.lmax = false := by decide

/-! ## Witnesses: the hypotheses of the statements can be met -/

theorem inv_ready : Inv ready := ⟨by intro k; revert k; decide, fun _ => rfl, .inl ⟨rfl, rfl⟩⟩

/-- A ready unit with one command at the port. -/
def presenting (w : Word) : State := { ready with host := [.command w] }

theorem witness_DecodedWordIsTheEncoding : decode 0x247300FF = .ok (.pget 7 3 255) := by decide

theorem witness_TableRows : decode 0x2B320100 = .ok (.pdivr 3 1 2 0) := by decide

/-- The greatest legal specifiers and immediate. -/
theorem witness_Illegal_legal : (presenting 0x247300FF).tblReady = true ∧
    (presenting 0x247300FF).host = .command 0x247300FF :: [] ∧ LegalWord 0x247300FF :=
  ⟨rfl, rfl, .pget, by simp [Opcode.code, Opcode.form, OpForm.layout, FieldLegal]⟩

/-- The least illegal scalar specifier, in GFADD's d field. -/
theorem witness_Illegal_specifier : (presenting 0x10801000).tblReady = true ∧
    (presenting 0x10801000).host = .command 0x10801000 :: [] ∧ ¬ LegalWord 0x10801000 :=
  ⟨rfl, rfl, fun ⟨o, h⟩ => by cases o <;> simp [Opcode.code, Opcode.form, OpForm.layout, FieldLegal] at h⟩

/-- A reserved opcode. -/
theorem witness_Illegal_reserved : ¬ LegalWord 0x03000000 :=
  fun ⟨o, h⟩ => by cases o <;> simp [Opcode.code, Opcode.form, OpForm.layout, FieldLegal] at h

/-- The least illegal control register number, and equal destinations of PDIVR. -/
theorem witness_Illegal_step_four : ¬ LegalWord 0x02000002 ∧ ¬ LegalWord 0x2B000000 :=
  ⟨fun ⟨o, h⟩ => by cases o <;> simp [Opcode.code, Opcode.form, OpForm.layout, FieldLegal] at h,
   fun ⟨o, h⟩ => by cases o <;> simp [Opcode.code, Opcode.form, OpForm.layout, FieldLegal] at h⟩

theorem witness_StepRunsTheDecodedCommand : (presenting 0x10201000).tblReady = true ∧
    (presenting 0x10201000).host = .command 0x10201000 :: [] ∧ decode 0x10201000 = .ok (.gfadd 2 0 1) := by decide

theorem witness_CommandsWaitForTableInit : ∃ s : State, s.tblReady = false ∧ (∀ rest, s.host ≠ .reset :: rest) ∧
    s.host = .command 0x10201000 :: [] ∧ decode 0x10201000 = .ok (.gfadd 2 0 1) :=
  ⟨{ State.reset with host := [.command 0x10201000] }, rfl, by simp, rfl, by decide⟩

theorem witness_ResetGivesResetValues : ∃ (s : State) (rest : List HostEvent), s.host = .reset :: rest ∧ s.S 0 = 7 :=
  ⟨{ ready.setS 0 7 with host := [.reset] }, [], rfl, by decide⟩

theorem witness_ResetAbandons : ∃ s : State, s.tblReady = true ∧ s.host = .resetDuring 0x08000053 :: [] :=
  ⟨{ ready with host := [.resetDuring 0x08000053] }, rfl, rfl⟩

theorem witness_Idle : ready.tblReady = true ∧ ready.host = [] := ⟨rfl, rfl⟩

/-- One list for a ready unit and one for a unit that waits for TableInit, a failing command among them, with its last
position and the first one past it. -/
theorem witness_EveryCommandIsAnsweredOnce :
    (presenting 0x30000000).host = [0x30000000].map HostEvent.command ∧ (presenting 0x30000000).tblReady = true ∧
    ([0x30000000] : List Word)[0]? = some 0x30000000 ∧ ([0x30000000] : List Word)[1]? = none ∧
    State.reset.host = ([] : List Word).map HostEvent.command ∧ State.reset.tblReady = false := by decide

/-- A word the decoder refuses, with its next state and response, and one whose command returns data. -/
theorem witness_ResponsesHaveTheirLayout :
    step (presenting 0x03000000) = .next (((presenting 0x03000000).consume []).raise .illegalCommand) ∧
    decode 0x03000000 = .error .reservedOpcode ∧ decode 0x09030000 = .ok (.srd 3) ∧ returnsData (.srd 3) = true ∧
    decode 0x08300053 = .ok (.sli 3 0x53) ∧ returnsData (.sli 3 0x53) = false := by
  refine ⟨rfl, ?_⟩
  decide

/-- A command that succeeds and one that fails, each with its next state: for the statements about every command. -/
theorem witness_exec_next : exec (.sli 3 5) ready = .next ((ready.setS 3 5).respond 0) ∧
    exec (.csrrd 2) ready = .next (ready.raise .illegalCommand) := ⟨rfl, rfl⟩

theorem witness_CommandsRaiseOnlyTheirErrors : ready.tables = tableContents ∧
    exec (.genpoly 0 0) ready = .next (ready.raise .invalidDegree) ∧
    (ready.raise .invalidDegree).responses = ready.responses ++ [responseWord ErrorKind.invalidDegree.code 0] :=
  ⟨rfl, rfl, rfl⟩

theorem witness_TablesBeforeInit : State.reset.tblReady = false := rfl

/-- A unit with an error recorded and a word that is neither CLRERR nor a reset. -/
theorem witness_OnlyClrerrAndReset : ∃ s : State, s.tblReady = true ∧ (∀ rest, s.host ≠ .reset :: rest) ∧
    (∀ w rest, s.host ≠ .resetDuring w :: rest) ∧ (∀ rest, s.host ≠ .command 0x01000000 :: rest) ∧
    flagOf s.errs .divisionByZero = true ∧ s.lastErr ≠ 0 :=
  ⟨(presenting 0).raise .divisionByZero, rfl, by simp [presenting], by simp [presenting], by simp [presenting],
    by decide, by decide⟩

theorem witness_TablesStayUntilReset : (presenting 0).tblReady = true ∧ (∀ rest, (presenting 0).host ≠ .reset :: rest) ∧
    (∀ w rest, (presenting 0).host ≠ .resetDuring w :: rest) := ⟨rfl, by simp [presenting], by simp [presenting]⟩

theorem witness_StepKeepsTheInvariant : Inv ready ∧ step ready = .next ready := ⟨inv_ready, rfl⟩

/-- The least and the greatest illegal control register number. -/
theorem witness_Csrrd : 2 ≤ (2 : Byte).toNat ∧ 2 ≤ (255 : Byte).toNat := by decide

theorem witness_Gfdiv : (withS 0 1).S 1 ≠ 0 ∧ (withS 1 0).S 1 = 0 := by decide

theorem witness_Gflog : (withS 1 0).S 0 ≠ 0 ∧ (withS 0 0).S 0 = 0 := by decide

/-- The least and the greatest index, and the first one outside the table. -/
theorem witness_Gfalog : ((withS 0 0).S 0).toNat = (0 : Fin 255).val ∧ ((withS 254 0).S 0).toNat = (254 : Fin 255).val ∧
    (withS 255 0).S 0 = 255 := by decide

/-- One coefficient less than LMAX, and LMAX. -/
theorem witness_PappAndPapps : ((small.setP 0 [1]).P 0).length ≠ (small.setP 0 [1]).lmax.val ∧
    ((small.setP 0 [1, 2]).P 0).length = (small.setP 0 [1, 2]).lmax.val := by decide

/-- The last index, the first one past it, and an empty register. -/
theorem witness_PrdAndPget : (1 : Byte).toNat < ((small.setP 0 [1, 2]).P 0).length ∧
    ((small.setP 0 [1, 2]).P 0).length ≤ (2 : Byte).toNat ∧ (small.P 0).length ≤ (0 : Byte).toNat := by decide

theorem witness_PlenAndPdeg : FitsCapacity ready := inv_ready.fits

/-- A state whose registers fit, one of them full. -/
theorem witness_PaddAndPsub : FitsCapacity (small.setP 0 [1, 2]) ∧
    ((small.setP 0 [1, 2]).P 0).length = (small.setP 0 [1, 2]).lmax.val := by
  refine ⟨fun k => ?_, by decide⟩
  revert k; decide

/-- An empty operand, the longest product that fits, and one coefficient more. -/
theorem witness_Pmul : small.P 0 = [] ∧
    ((small.setP 0 [1, 2]).P 0).length + ((small.setP 1 [3]).P 1).length ≤ small.lmax.val + 1 ∧
    (small.setP 0 [1, 2]).P 0 ≠ [] ∧
    small.lmax.val + 1 < ((small.setP 0 [1, 2]).P 0).length + ((small.setP 0 [1, 2]).P 0).length := by decide

/-- Equal destinations; an empty divisor, a zero leading coefficient; a legal divisor of one coefficient. -/
theorem witness_Pdivr : (2 : PReg) = 2 ∧ ((2 : PReg) ≠ 3 ∧ ready.P 0 = []) ∧
    ((ready.setP 0 [0, 1]).P 0)[0]? = some 0 ∧ (ready.setP 0 [1]).P 0 = 1 :: [] ∧ (1 : Byte) ≠ 0 := by decide

/-- n = 0, the greatest degree that fits, and the first that does not. -/
theorem witness_Genpoly : (0 : Byte) = 0 ∧ ((1 : Byte) ≠ 0 ∧ (1 : Byte).toNat + 1 ≤ small.lmax.val) ∧
    ((2 : Byte) ≠ 0 ∧ small.lmax.val < (2 : Byte).toNat + 1) := by decide

theorem witness_Pshl : ((small.setP 0 [1]).P 0).length + (1 : Byte).toNat ≤ small.lmax.val ∧
    small.lmax.val < ((small.setP 0 [1]).P 0).length + (2 : Byte).toNat := by decide

/-- An empty message, n = 0, the longest dividend that fits, and one coefficient more. -/
theorem witness_Rsenc : small.tables = tableContents ∧ small.P 0 = [] ∧ (0 : Byte) = 0 ∧
    ((small.setP 0 [1]).P 0 ≠ [] ∧ (1 : Byte) ≠ 0 ∧
      ((small.setP 0 [1]).P 0).length + (1 : Byte).toNat ≤ small.lmax.val) ∧
    ((2 : Byte) ≠ 0 ∧ small.lmax.val < ((small.setP 0 [1]).P 0).length + (2 : Byte).toNat) :=
  ⟨rfl, by decide⟩

theorem witness_nonzero_elements : (1 : Byte) ≠ 0 ∧ (255 : Byte) ≠ 0 := by decide

/-- For the statements about polynomials: operands, and a divisor with a nonzero leading coefficient. -/
theorem witness_polynomials : ([0, 1] : Poly) ≠ [] ∧ 0 < ([0, 1] : Poly).length + ([3] : Poly).length - 1 ∧
    ([2, 0] : Poly) = 2 :: [0] ∧ (2 : Byte) ≠ 0 ∧ (([0, 1] : Poly) = [] ∨ ([0, 1] : Poly)[0]? = some 0) ∧
    ([2, 0] : Poly).length ≤ ([0, 1] : Poly).length ∧ ([] : Poly).length < ([2, 0] : Poly).length := by decide

/-- α^0 is a root of the divisor [1, 1]. -/
theorem witness_DivisionRoundTrip_root : polyEval tableContents [1, 1] 1 = 0 := by decide

theorem witness_GeneratorHasItsRoots : 1 ≤ 1 ∧ 0 < 1 := by decide

/-- Two messages of one length, both encoded (V-E10, n = 1). -/
theorem witness_CodewordsCompleteTheMessage : ([0xFF] : Poly) ≠ [] ∧ ([0xFF] : Poly).length = ([1] : Poly).length ∧
    rsEncode tableContents [0xFF] 1 = .ok [0xFF] ∧ rsEncode tableContents [1] 1 = .ok [1] := by decide

/-- A message that fits with its codewords, and an empty one, with g = 2, p = 0 over the message, q = 1, r = 3; then n = 0. -/
theorem witness_SeparateCommands : (small.setP 0 [1]).tables = tableContents ∧ (2 : PReg) ≠ 0 ∧ (1 : PReg) ≠ 3 ∧
    (1 : Byte) ≠ 0 ∧ (small.setP 0 [1]).P 0 ≠ [] ∧
    ((small.setP 0 [1]).P 0).length + (1 : Byte).toNat ≤ (small.setP 0 [1]).lmax.val ∧
    (small.P 0 = [] ∧ (1 : Byte).toNat + 1 ≤ small.lmax.val) ∧ (0 : Byte) = 0 := ⟨rfl, by decide⟩

/-- A list of LMAX values. -/
theorem witness_Pload : ([1, 2] : List Byte).length ≤ small.lmax.val := by decide

theorem witness_ScalarPseudos : (withS 1 0).tables = tableContents ∧ (2 : SReg) ≠ 0 ∧ (withS 1 0).S 0 ≠ 0 ∧
    (withS 0 0).S 0 = 0 := ⟨rfl, by decide⟩

end Sys2Proof.Tests
end

/-! What a command can leave behind, said once for all commands (`exec_result`), and the statements about the
state that follow: destinations, the STATUS record, the tables and the invariant. -/

namespace Sys2Proof

/-! ## The decoder, inverted -/

/-- A word that decodes carries the number of its opcode, has every unused field zero, and gives its fields to the
command (steps 1 and 2 of R52). -/
theorem decode_ok {w : Word} {i : Instr} (h : decode w = .ok i) :
    ∃ o : Opcode, o.code = opField w ∧ o.form.layout.unusedZero (fieldsOf w) = true ∧ o.assemble (fieldsOf w) = i := by
  unfold decode at h
  split at h
  · cases h
  · next o ho =>
    split at h
    · cases h
    · next hu =>
      split at h
      · cases h
      · exact ⟨o, code_of_ofByte ho, by simpa using hu, by simpa using h⟩

theorem assemble_eq_clrerr {o : Opcode} {f : Fields} (h : o.assemble f = .clrerr) : o = .clrerr := by
  cases o with
  | clrerr => rfl
  | _ => cases h

/-- CLRERR uses no operand field, so all of them are zero. -/
theorem fields_eq_zero_of_clrerr {f : Fields} (h : Opcode.clrerr.form.layout.unusedZero f = true) :
    f = ⟨0, 0, 0, 0, 0⟩ := by
  simp only [Opcode.form, OpForm.layout, Layout.unusedZero, FieldUse.unusedOk, Bool.and_eq_true, beq_iff_eq,
    Bool.false_or] at h
  obtain ⟨⟨⟨⟨hd, ha⟩, hb⟩, he⟩, himm⟩ := h
  exact Fields.ext hd ha hb he himm

/-- The only word of CLRERR (R121). -/
theorem eq_of_decode_clrerr {w : Word} (h : decode w = .ok .clrerr) : w = 0x01000000 := by
  obtain ⟨o, hop, hzero, hi⟩ := decode_ok h
  obtain rfl := assemble_eq_clrerr hi
  rw [← pack_opField_fieldsOf w, ← hop, fields_eq_zero_of_clrerr hzero]
  rfl

end Sys2Proof

namespace Sys2Proof.Machine

/-! ## Lengths the division gives -/

theorem length_le_of_polyDivrem {t : Tables} {p d : Poly} {qr : Poly × Poly} (h : polyDivrem t p d = .ok qr) :
    qr.1.length ≤ p.length ∧ qr.2.length ≤ p.length := by
  obtain ⟨-, he⟩ | ⟨-, -, ho⟩ := polyDivrem_cases t p d
  · cases h.symm.trans he
  · cases h.symm.trans ho
    exact ⟨length_divTurns_quo_le .., length_divTurns_rem_le ..⟩

theorem length_le_of_rsEncode {t : Tables} {m ecc : Poly} {n : Nat} (h : rsEncode t m n = .ok ecc) :
    ecc.length ≤ m.length + n := by
  unfold rsEncode at h
  split at h
  · cases h
  · match hd : polyDivrem t (shiftLeft m n) (genPoly t n) with
    | .error k => rw [hd] at h; cases h
    | .ok qr =>
      rw [hd] at h
      cases h
      have hle := (length_le_of_polyDivrem hd).2
      rw [length_shiftLeft] at hle
      rw [length_padLeft]
      omega

/-! ## What a command can answer -/

/-- Everything command i can hand to `deliver` in state s: an error; data and nothing written; the cleared record, for
CLRERR alone; one or two of its named destinations written. A polynomial written fits the capacity if the registers
read do (R12). -/
inductive CommandResult (i : Instr) (s : State) : Except ErrorKind (State × Half) → Prop where
  | error (k : ErrorKind) : CommandResult i s (.error k)
  | answer (data : Half) : CommandResult i s (.ok (s, data))
  | clear (hi : i = .clrerr) : CommandResult i s (.ok (s.clearErrors, 0))
  | writeS {d : SReg} (hd : d ∈ scalarDests i) (v : Byte) : CommandResult i s (.ok (s.setS d v, 0))
  | writeP {d : PReg} {p : Poly} (hd : d ∈ polyDests i) (hp : FitsCapacity s → p.length ≤ s.lmax.val) :
      CommandResult i s (.ok (s.setP d p, 0))
  | writePP {q r : PReg} {x y : Poly} (hq : q ∈ polyDests i) (hr : r ∈ polyDests i)
      (hx : FitsCapacity s → x.length ≤ s.lmax.val) (hy : FitsCapacity s → y.length ≤ s.lmax.val) :
      CommandResult i s (.ok ((s.setP q x).setP r y, 0))

section
variable {i : Instr} {s t : State} {r : Except ErrorKind (State × Half)}

theorem CommandResult.ite_error {c : Prop} [Decidable c] {k : ErrorKind} (h : ¬ c → CommandResult i s r) :
    CommandResult i s (if c then .error k else r) := by
  split
  · exact .error k
  · next hc => exact h hc

theorem CommandResult.map {α : Type} {x : Except ErrorKind α} {f : α → State × Half}
    (h : ∀ a, x = .ok a → CommandResult i s (.ok (f a))) : CommandResult i s (x.map f) := by
  match x with
  | .error k => exact .error k
  | .ok a => exact h a rfl

theorem CommandResult.append {d : PReg} (hd : d ∈ polyDests i) (v : Byte) :
    CommandResult i s (appendCoefficient d v s) := by
  obtain ⟨-, he⟩ | ⟨hne, ho⟩ := appendCoefficient_cases d v s
  · rw [he]
    exact .error _
  · rw [ho]
    refine .writeP hd fun hfit => ?_
    have := hfit d
    simp only [List.length_append, List.length_singleton]
    omega

/-- Both operands within the capacity leave the longer one within it: PADD and PSUB (R86, R87). -/
theorem max_length_le (hfit : FitsCapacity s) (a b : PReg) : max (s.P a).length (s.P b).length ≤ s.lmax.val :=
  Nat.max_le.mpr ⟨hfit a, hfit b⟩

/-- The test of PMUL keeps the product within the capacity (R88). -/
theorem length_polyMul_le {t : Tables} {p q : Poly} {n : Nat}
    (h : ¬ (0 < p.length ∧ 0 < q.length ∧ p.length + q.length - 1 > n)) : (polyMul t p q).length ≤ n := by
  rw [length_polyMul]
  split
  · omega
  · next hne =>
    obtain ⟨hp, hq⟩ := not_or.mp hne
    have := List.length_pos_iff.mpr hp
    have := List.length_pos_iff.mpr hq
    omega

end

/-- The meaning of every command ends in one of the listed results. -/
theorem exec_result (i : Instr) (s : State) : ∃ r, exec i s = deliver s r ∧ CommandResult i s r := by
  cases i with
  | nop => exact ⟨_, rfl, .answer 0⟩
  | clrerr => exact ⟨_, rfl, .clear rfl⟩
  | csrrd n =>
    refine ⟨_, rfl, ?_⟩
    split
    · exact .answer _
    · split
      · exact .answer _
      · exact .error _
  | sli | gfadd | gfsub | gfmul | gfpow | gfpowi | peval => exact ⟨_, rfl, .writeS (List.mem_singleton_self _) _⟩
  | srd | plen | pdeg => exact ⟨_, rfl, .answer _⟩
  | gfdiv => exact ⟨_, rfl, .map fun v _ => .writeS (List.mem_singleton_self _) v⟩
  | gflog | gfalog => exact ⟨_, rfl, .ite_error fun _ => .writeS (List.mem_singleton_self _) _⟩
  | pclr => exact ⟨_, rfl, .writeP (List.mem_singleton_self _) fun _ => Nat.zero_le _⟩
  | papp | papps => exact ⟨_, rfl, .append (List.mem_singleton_self _) _⟩
  | prd => exact ⟨_, rfl, .map fun c _ => .answer _⟩
  | pget => exact ⟨_, rfl, .map fun c _ => .writeS (List.mem_singleton_self _) c⟩
  | pmov d a => exact ⟨_, rfl, .writeP (List.mem_singleton_self _) fun hfit => hfit a⟩
  | padd d a b =>
    exact ⟨_, rfl, .writeP (List.mem_singleton_self _) fun hfit => length_polyAdd _ _ ▸ max_length_le hfit a b⟩
  | psub d a b =>
    exact ⟨_, rfl, .writeP (List.mem_singleton_self _) fun hfit => length_polySub _ _ ▸ max_length_le hfit a b⟩
  | pmul => exact ⟨_, rfl, .ite_error fun h => .writeP (List.mem_singleton_self _) fun _ => length_polyMul_le h⟩
  | pdivr q r a b =>
    refine ⟨_, rfl, .ite_error fun _ => .map fun qr h => ?_⟩
    obtain ⟨hquo, hrem⟩ := length_le_of_polyDivrem h
    exact .writePP (by simp [polyDests]) (by simp [polyDests]) (fun hfit => hquo.trans (hfit a))
      fun hfit => hrem.trans (hfit a)
  | genpoly =>
    exact ⟨_, rfl, .ite_error fun _ => .ite_error fun h => .writeP (List.mem_singleton_self _)
      fun _ => length_genPoly _ _ ▸ Nat.le_of_not_lt h⟩
  | pshl =>
    exact ⟨_, rfl, .ite_error fun h => .writeP (List.mem_singleton_self _)
      fun _ => length_shiftLeft _ _ ▸ Nat.le_of_not_lt h⟩
  | rsenc =>
    exact ⟨_, rfl, .ite_error fun _ => .ite_error fun h => .map fun ecc hecc =>
      .writeP (List.mem_singleton_self _) fun _ => (length_le_of_rsEncode hecc).trans (Nat.le_of_not_lt h)⟩

/-! ## Destinations (R23, R10) -/

theorem RegistersExcept.mono {ss ss' : List SReg} {ps ps' : List PReg} {s t : State}
    (h : RegistersExcept ss ps s t) (hs : ss ⊆ ss') (hp : ps ⊆ ps') : RegistersExcept ss' ps' s t where
  scalars := fun i hi => h.scalars i fun hmem => hi (hs hmem)
  polys := fun k hk => h.polys k fun hmem => hk (hp hmem)

/-- What a command can hand to `deliver` changes its named destinations alone. -/
theorem CommandResult.frame {i : Instr} {s t : State} {r : Except ErrorKind (State × Half)} (h : CommandResult i s r)
    (ht : deliver s r = .next t) : RegistersExcept (scalarDests i) (polyDests i) s t ∧ SameControl s t := by
  cases h with
  | error k =>
    cases ht
    have hfail := raise_failed s k
    exact ⟨hfail.registers.mono (by simp) (by simp), hfail.control⟩
  | answer data =>
    cases ht
    have hok := succeeded_respond s data
    exact ⟨hok.registers.mono (by simp) (by simp), hok.control⟩
  | clear =>
    cases ht
    exact ⟨⟨fun _ _ => rfl, fun _ _ => rfl⟩, ⟨rfl, rfl, rfl, rfl⟩⟩
  | @writeS d hd v =>
    cases ht
    have hok := succeeded_setS s d v
    exact ⟨hok.registers.mono (by simp [hd]) (by simp), hok.control⟩
  | @writeP d p hd =>
    cases ht
    have hok := succeeded_setP s d p
    exact ⟨hok.registers.mono (by simp) (by simp [hd]), hok.control⟩
  | @writePP q r x y hq hr =>
    cases ht
    have hok := succeeded_setP_setP s q r x y
    exact ⟨hok.registers.mono (by simp) (by simp [hq, hr]), hok.control⟩

theorem exec_frame {i : Instr} {s t : State} (h : exec i s = .next t) :
    RegistersExcept (scalarDests i) (polyDests i) s t ∧ SameControl s t := by
  obtain ⟨r, hr, hres⟩ := exec_result i s
  exact hres.frame (hr.symm.trans h)

/-- Settles O16: every result of a command is one of `CommandResult`, and each of these writes named destinations. -/
theorem commandsWriteOnlyTheirDestinations : Obligations.CommandsWriteOnlyTheirDestinations :=
  fun _ _ _ h => exec_frame h

/-! ## The tables after TableInit (R16) -/

theorem executeWord_sameControl {w : Word} {s t : State} (h : executeWord w s = .next t) : SameControl s t := by
  obtain ⟨_, -, he⟩ | ⟨i, -, he⟩ := executeWord_cases w s
  · cases he.symm.trans h
    exact (raise_failed s .illegalCommand).control
  · exact (exec_frame (he.symm.trans h)).2

/-- Settles O20: without a reset, a ready unit's step is idle or the execution of a word, which keeps the tables. -/
theorem tablesStayUntilReset : Obligations.TablesStayUntilReset := by
  intro s t hready h hreset hduring
  obtain ⟨rest, hhost, -⟩ | ⟨hwait, -, -⟩ | ⟨-, -, hs⟩ | ⟨-, w, rest, -, hs⟩ | ⟨-, w, rest, hhost, -⟩ := step_cases s
  · exact absurd hhost (hreset rest)
  · exact absurd hready (by simp [hwait])
  · cases hs.symm.trans h
    exact ⟨rfl, hready⟩
  · have hsame := executeWord_sameControl (hs.symm.trans h)
    exact ⟨hsame.tables, hsame.tblReady.trans hready⟩
  · exact absurd hhost (hduring w rest)

/-! ## The STATUS record (R18, R146) -/

/-- From s to t no sticky flag is cleared, and LASTERR does not return to 0. -/
structure RecordKept (s t : State) : Prop where
  flags : ∀ k : ErrorKind, flagOf s.errs k = true → flagOf t.errs k = true
  lastErr : s.lastErr ≠ 0 → t.lastErr ≠ 0

theorem SameStatus.recordKept {s t : State} (h : SameStatus s t) : RecordKept s t :=
  ⟨fun _ hk => h.errs ▸ hk, fun hl => h.lastErr ▸ hl⟩

theorem code_ne_zero (k : ErrorKind) : k.code ≠ 0 := by cases k <;> decide

theorem recordKept_raise (s : State) (k : ErrorKind) : RecordKept s (s.raise k) :=
  ⟨fun j hj => by simp [flagOf_setSticky, hj], fun _ => code_ne_zero k⟩

/-- Of all results only CLRERR's clears the record. -/
theorem CommandResult.recordKept {i : Instr} {s t : State} {r : Except ErrorKind (State × Half)}
    (h : CommandResult i s r) (hi : i ≠ .clrerr) (ht : deliver s r = .next t) : RecordKept s t := by
  cases h with
  | error k => cases ht; exact recordKept_raise s k
  | clear hclr => exact absurd hclr hi
  | answer | writeS | writeP | writePP => cases ht; exact SameStatus.recordKept ⟨rfl, rfl⟩

theorem executeWord_recordKept {w : Word} {s t : State} (hw : w ≠ 0x01000000) (h : executeWord w s = .next t) :
    RecordKept s t := by
  obtain ⟨_, -, he⟩ | ⟨i, hdec, he⟩ := executeWord_cases w s
  · cases he.symm.trans h
    exact recordKept_raise s .illegalCommand
  · obtain ⟨r, hr, hres⟩ := exec_result i s
    refine hres.recordKept ?_ (hr.symm.trans (he.symm.trans h))
    rintro rfl
    exact hw (eq_of_decode_clrerr hdec)

/-- A step that is neither CLRERR nor a reset keeps the record. -/
theorem step_recordKept {s t : State} (h : step s = .next t) (hreset : ∀ rest, s.host ≠ .reset :: rest)
    (hduring : ∀ w rest, s.host ≠ .resetDuring w :: rest) (hclr : ∀ rest, s.host ≠ .command 0x01000000 :: rest) :
    RecordKept s t := by
  obtain ⟨rest, hhost, -⟩ | ⟨-, -, hs⟩ | ⟨-, -, hs⟩ | ⟨-, w, rest, hhost, hs⟩ | ⟨-, w, rest, hhost, -⟩ := step_cases s
  · exact absurd hhost (hreset rest)
  · cases hs.symm.trans h
    exact SameStatus.recordKept ⟨rfl, rfl⟩
  · cases hs.symm.trans h
    exact SameStatus.recordKept ⟨rfl, rfl⟩
  · have hw : w ≠ 0x01000000 := by
      rintro rfl
      exact hclr rest hhost
    have hkept := executeWord_recordKept hw (hs.symm.trans h)
    exact ⟨hkept.flags, hkept.lastErr⟩
  · exact absurd hhost (hduring w rest)

/-- Settles O19: 0x01000000 is the only word of CLRERR, and every other command, TableInit and the idle step keep the
record. -/
theorem onlyClrerrAndResetClearTheRecord : Obligations.OnlyClrerrAndResetClearTheRecord := by
  intro s t h hreset hduring hclr
  have hkept := step_recordKept h hreset hduring hclr
  exact ⟨hkept.flags, hkept.lastErr⟩

/-! ## The invariant (R12, R16, R17, R18) -/

/-- Every result of a command keeps the invariant. -/
theorem CommandResult.inv {i : Instr} {s t : State} {r : Except ErrorKind (State × Half)} (h : CommandResult i s r)
    (hs : Inv s) (ht : deliver s r = .next t) : Inv t := by
  cases h with
  | error k => cases ht; exact inv_raise hs k
  | answer data => cases ht; exact inv_respond hs data
  | clear => cases ht; exact inv_respond (inv_clearErrors hs) 0
  | writeS _ v => cases ht; exact inv_respond (inv_setS hs _ v) 0
  | writeP _ hp => cases ht; exact inv_respond (inv_setP hs (hp hs.fits)) 0
  | writePP _ _ hx hy => cases ht; exact inv_respond (inv_setP (inv_setP hs (hx hs.fits)) (hy hs.fits)) 0

theorem executeWord_inv {w : Word} {s t : State} (hs : Inv s) (h : executeWord w s = .next t) : Inv t := by
  obtain ⟨_, -, he⟩ | ⟨i, -, he⟩ := executeWord_cases w s
  · cases he.symm.trans h
    exact inv_raise hs .illegalCommand
  · obtain ⟨r, hr, hres⟩ := exec_result i s
    exact hres.inv hs (hr.symm.trans (he.symm.trans h))

/-- Settles O22: one case per kind of step; for a command, per kind of result. -/
theorem stepKeepsTheInvariant : Obligations.StepKeepsTheInvariant := by
  intro s t hinv h
  obtain ⟨rest, -, hs⟩ | ⟨-, -, hs⟩ | ⟨-, -, hs⟩ | ⟨-, w, rest, -, hs⟩ | ⟨-, w, rest, -, hs⟩ := step_cases s
  · cases hs.symm.trans h
    exact inv_applyReset _
  · cases hs.symm.trans h
    exact inv_tableInit hinv
  · cases hs.symm.trans h
    exact hinv
  · exact executeWord_inv (inv_consume hinv rest) (hs.symm.trans h)
  · cases hs.symm.trans h
    exact inv_applyReset _

/-- Settles O21: the state after reset is what reset makes of itself. -/
theorem resetStateMeetsTheInvariant : Obligations.ResetStateMeetsTheInvariant := inv_applyReset State.reset

/-! ## Reset and TableInit (R17, R22) -/

theorem step_reset_state : step State.reset = .next State.reset.tableInit := step_tableInit rfl (by simp [State.reset])

/-- Settles O10: the fields of the two states, the second reached by the TableInit step. -/
theorem stateAfterResetAndAfterTableInit : Obligations.StateAfterResetAndAfterTableInit :=
  ⟨State.reset_S, State.reset_P, rfl, rfl, rfl, by decide, State.reset.tableInit, step_reset_state,
    State.reset_S, State.reset_P, rfl, rfl, rfl, rfl, by decide, by decide⟩

theorem executeWord_next (w : Word) (s : State) : ∃ t, executeWord w s = .next t := by
  obtain ⟨_, -, he⟩ | ⟨i, -, he⟩ := executeWord_cases w s
  · exact ⟨_, he⟩
  · obtain ⟨r, hr⟩ := exec_eq_deliver i s
    rw [he, hr]
    exact deliver_next s r

theorem step_next (s : State) : ∃ t, step s = .next t := by
  obtain ⟨_, -, hs⟩ | ⟨-, -, hs⟩ | ⟨-, -, hs⟩ | ⟨-, w, rest, -, hs⟩ | ⟨-, _, _, -, hs⟩ := step_cases s
  · exact ⟨_, hs⟩
  · exact ⟨_, hs⟩
  · exact ⟨_, hs⟩
  · rw [hs]
    exact executeWord_next w (s.consume rest)
  · exact ⟨_, hs⟩

theorem run_next (n : Nat) (s : State) : ∃ t, run n s = .next t := by
  induction n generalizing s with
  | zero => exact ⟨s, rfl⟩
  | succ n ih =>
    obtain ⟨u, hu⟩ := step_next s
    rw [run_succ hu]
    exact ih u

/-- The step of a unit that is not ready, a reset or TableInit, drops what the tables held. -/
theorem step_of_other_tables {s : State} (hwait : s.tblReady = false) (junk : Tables) :
    step { s with tables := junk } = step s := by
  obtain ⟨rest, hhost, hs⟩ | ⟨-, hhost, hs⟩ | ⟨hready, -⟩ | ⟨hready, -⟩ | ⟨hready, -⟩ := step_cases s
  · rw [hs]
    exact step_reset hhost
  · rw [hs]
    exact step_tableInit hwait hhost
  all_goals exact absurd hready (by simp [hwait])

/-- Settles O15: the first step leads both machines to the same state, and before it they differ in the tables alone. -/
theorem tablesBeforeInitAreUnobservable : Obligations.TablesBeforeInitAreUnobservable := by
  intro n s junk hwait
  cases n with
  | zero =>
    exact ⟨_, _, rfl, rfl, rfl, rfl, fun _ => rfl, fun _ => rfl, fun hready => absurd hready (by simp [hwait])⟩
  | succ n =>
    obtain ⟨u, hu⟩ := step_next s
    obtain ⟨t, ht⟩ := run_next n u
    have hs : run (n + 1) s = .next t := (run_succ hu).trans ht
    have hjunk : run (n + 1) { s with tables := junk } = .next t :=
      (run_succ ((step_of_other_tables hwait junk).trans hu)).trans ht
    exact ⟨t, t, hs, hjunk, rfl, rfl, fun _ => rfl, fun _ => rfl, fun _ => rfl⟩

end Sys2Proof.Machine

/-! The port (R38, R57): the step of a ready unit is that of the command at its head, and a list of commands is answered
by one response each, in order. -/

namespace Sys2Proof.Machine

/-! ## One command -/

theorem executeWord_of_decode {w : Word} {i : Instr} (h : decode w = .ok i) (s : State) :
    executeWord w s = exec i s := by simp [executeWord, h]

/-- Settles O6: a ready unit executes the word at its head, and a word that decodes is executed as its command. -/
theorem stepRunsTheDecodedCommand : Obligations.StepRunsTheDecodedCommand :=
  fun s _ rest _ hready hhost hdec => (step_command hready hhost).trans (executeWord_of_decode hdec (s.consume rest))

/-- Every result of a command is answered with one response, laid out as R53 says. -/
theorem CommandResult.answered {i : Instr} {s t : State} {x : Except ErrorKind (State × Half)}
    (h : CommandResult i s x) (ht : deliver s x = .next t) :
    ∃ r, t.responses = s.responses ++ [r] ∧ ResponseLayout r := by
  cases h with
  | error k => cases ht; exact ⟨_, rfl, responseLayout_error k⟩
  | answer data => cases ht; exact ⟨_, rfl, responseLayout_ok data⟩
  | clear | writeS | writeP | writePP => cases ht; exact ⟨_, rfl, responseLayout_ok 0⟩

/-- An accepted word is answered with one response, laid out as R53 says. -/
theorem executeWord_answered {w : Word} {s t : State} (h : executeWord w s = .next t) :
    ∃ r, t.responses = s.responses ++ [r] ∧ ResponseLayout r := by
  obtain ⟨_, -, he⟩ | ⟨i, -, he⟩ := executeWord_cases w s
  · cases he.symm.trans h
    exact ⟨_, rfl, responseLayout_error .illegalCommand⟩
  · obtain ⟨x, hx, hres⟩ := exec_result i s
    exact hres.answered (hx.symm.trans (he.symm.trans h))

/-- The step of a ready unit with a command at its head executes the word, consumes it, adds one response and leaves
the unit ready. -/
theorem step_command_answered {s : State} {w : Word} {rest : List HostEvent} (hready : s.tblReady = true)
    (hhost : s.host = .command w :: rest) :
    ∃ v r, executeWord w (s.consume rest) = .next v ∧ step s = .next v ∧ v.tblReady = true ∧ v.host = rest ∧
      v.responses = s.responses ++ [r] ∧ ResponseLayout r := by
  obtain ⟨v, hv⟩ := executeWord_next w (s.consume rest)
  obtain ⟨r, hr, hlayout⟩ := executeWord_answered hv
  have hsame := executeWord_sameControl hv
  exact ⟨v, r, hv, (step_command hready hhost).trans hv, hsame.tblReady.trans hready, hsame.host, hr, hlayout⟩

/-! ## A list of commands -/

/-- From s, which presents the commands `ws`, command w at position i starts after i steps and i responses of `rs`, and
its step executes it and adds response i. -/
def AnsweredAt (s : State) (ws rs : List Word) (i : Nat) (w : Word) : Prop :=
  ∃ (u v : State) (r : Word), run i s = .next u ∧ u.host = (ws.drop i).map HostEvent.command ∧
    u.responses = s.responses ++ rs.take i ∧
    executeWord w (u.consume ((ws.drop (i + 1)).map HostEvent.command)) = .next v ∧
    run (i + 1) s = .next v ∧ v.responses = u.responses ++ [r] ∧ rs[i]? = some r

/-- The run from s answers the commands `ws` with the responses `rs`, one step each, and ends ready in t. -/
structure AnsweredInOrder (s t : State) (ws rs : List Word) : Prop where
  run_eq : run ws.length s = .next t
  host : t.host = []
  ready : t.tblReady = true
  length_eq : rs.length = ws.length
  responses : t.responses = s.responses ++ rs
  layout : ∀ r ∈ rs, ResponseLayout r
  each : ∀ (i : Nat) (w : Word), ws[i]? = some w → AnsweredAt s ws rs i w

theorem answeredInOrder_nil {s : State} (hready : s.tblReady = true) (hhost : s.host = []) :
    AnsweredInOrder s s [] [] where
  run_eq := rfl
  host := hhost
  ready := hready
  length_eq := rfl
  responses := (List.append_nil _).symm
  layout := by simp
  each := by simp

section
variable {s v : State} {w r : Word} {ws rs : List Word}

/-- The command at the head is answered by the first step. -/
theorem answeredAt_zero (hhost : s.host = (w :: ws).map HostEvent.command)
    (hexec : executeWord w (s.consume (ws.map HostEvent.command)) = .next v) (hstep : step s = .next v)
    (hresp : v.responses = s.responses ++ [r]) : AnsweredAt s (w :: ws) (r :: rs) 0 w :=
  ⟨s, v, r, rfl, hhost, (List.append_nil _).symm, hexec, run_succ hstep, hresp, rfl⟩

/-- The first step moves every later command one position down. -/
theorem AnsweredAt.succ (hstep : step s = .next v) (hresp : v.responses = s.responses ++ [r]) {i : Nat} {w' : Word}
    (h : AnsweredAt v ws rs i w') : AnsweredAt s (w :: ws) (r :: rs) (i + 1) w' := by
  obtain ⟨u, x, r', hu, hhost, hprefix, hexec, hx, hlast, hr'⟩ := h
  exact ⟨u, x, r', (run_succ hstep).trans hu, hhost, by simp [hprefix, hresp], hexec, (run_succ hstep).trans hx,
    hlast, hr'⟩

theorem AnsweredInOrder.cons {t : State} (hhost : s.host = (w :: ws).map HostEvent.command)
    (hexec : executeWord w (s.consume (ws.map HostEvent.command)) = .next v) (hstep : step s = .next v)
    (hresp : v.responses = s.responses ++ [r]) (hlayout : ResponseLayout r) (h : AnsweredInOrder v t ws rs) :
    AnsweredInOrder s t (w :: ws) (r :: rs) where
  run_eq := (run_succ hstep).trans h.run_eq
  host := h.host
  ready := h.ready
  length_eq := congrArg (· + 1) h.length_eq
  responses := by simp [h.responses, hresp]
  layout := List.forall_mem_cons.mpr ⟨hlayout, h.layout⟩
  each
    | 0, _, hw => by
      cases hw
      exact answeredAt_zero hhost hexec hstep hresp
    | i + 1, w', hw => (h.each i w' hw).succ hstep hresp

end

/-- A ready unit answers any list of commands in order. -/
theorem exists_answeredInOrder (ws : List Word) (s : State) (hready : s.tblReady = true)
    (hhost : s.host = ws.map HostEvent.command) : ∃ t rs, AnsweredInOrder s t ws rs := by
  induction ws generalizing s with
  | nil => exact ⟨s, [], answeredInOrder_nil hready hhost⟩
  | cons w ws ih =>
    obtain ⟨v, r, hexec, hstep, hvready, hvhost, hresp, hlayout⟩ := step_command_answered hready hhost
    obtain ⟨t, rs, h⟩ := ih v hvready hvhost
    exact ⟨t, r :: rs, h.cons hhost hexec hstep hresp hlayout⟩

/-- Where TableInit is still to come it is the first step, and what the host presents and was answered stays (R166,
R167): the rest is the run of a ready unit. -/
theorem exists_ready_start {s : State} (hreset : ∀ rest, s.host ≠ .reset :: rest) :
    ∃ s₀ : State, s₀.tblReady = true ∧ s₀.host = s.host ∧ s₀.responses = s.responses ∧
      ∀ k, run ((if s.tblReady then 0 else 1) + k) s = run k s₀ := by
  cases hs : s.tblReady with
  | true => exact ⟨s, hs, rfl, rfl, fun k => congrArg (run · s) (Nat.zero_add k)⟩
  | false =>
    refine ⟨s.tableInit, rfl, rfl, rfl, fun k => ?_⟩
    rw [← run_succ (step_tableInit hs hreset)]
    exact congrArg (run · s) (Nat.add_comm 1 k)

/-- Settles O13: after TableInit, where it is still to come, by induction on the list of commands. -/
theorem everyCommandIsAnsweredOnce : Obligations.EveryCommandIsAnsweredOnce := by
  intro ws s hhost
  have hreset : ∀ rest, s.host ≠ .reset :: rest := by
    rw [hhost]
    cases ws <;> simp
  obtain ⟨s₀, hready, hhost₀, hresp₀, hrun⟩ := exists_ready_start hreset
  obtain ⟨t, rs, h⟩ := exists_answeredInOrder ws s₀ hready (hhost₀.trans hhost)
  refine ⟨_, t, rs, rfl, (hrun _).trans h.run_eq, h.host, h.ready, h.length_eq, hresp₀ ▸ h.responses, h.layout, ?_⟩
  intro i w hw
  obtain ⟨u, v, r, hu, huhost, hprefix, hexec, hv, hlast, hr⟩ := h.each i w hw
  exact ⟨u, v, r, (hrun i).trans hu, huhost, hresp₀ ▸ hprefix, hexec, (hrun (i + 1)).trans hv, hlast, hr⟩

end Sys2Proof.Machine

/-! Encoding (R45 to R52): the decoder's four answers, the round trips with the encoder, the rows of the opcode table,
and the legal words. -/

namespace Sys2Proof

/-! ## The decoder, case by case (R52) -/

theorem code_inj {o p : Opcode} (h : o.code = p.code) : o = p :=
  Option.some_injective _ <| (ofByte_code o).symm.trans ((congrArg Opcode.ofByte h).trans (ofByte_code p))

/-- Once step 1 has found the opcode, steps 2 and 3 decide. -/
theorem decode_of_code {w : Word} {o : Opcode} (h : o.code = opField w) :
    decode w = if o.form.layout.unusedZero (fieldsOf w) = false then .error .unusedFieldNonzero
      else if o.form.layout.specifiersInRange (fieldsOf w) = false then .error .specifierOutOfRange
      else .ok (o.assemble (fieldsOf w)) := by
  simp [decode, ← h]

theorem decode_of_reserved {w : Word} (h : ∀ o : Opcode, o.code ≠ opField w) :
    decode w = .error .reservedOpcode := by
  match hop : Opcode.ofByte (opField w) with
  | none => simp [decode, hop]
  | some o => exact absurd (code_of_ofByte hop) (h o)

/-- A word passes steps 1 and 2 of R52 with this opcode: the opcode's number and zero in every unused field. -/
def MatchesOpcode (w : Word) (o : Opcode) : Prop :=
  o.code = opField w ∧ o.form.layout.unusedZero (fieldsOf w) = true

theorem MatchesOpcode.unique {w : Word} {o p : Opcode} (ho : MatchesOpcode w o) (hp : MatchesOpcode w p) : o = p :=
  code_inj (ho.1.trans hp.1.symm)

/-- A word that passes steps 1 and 2 is refused at step 3 or decodes. -/
theorem MatchesOpcode.decode {w : Word} {o : Opcode} (h : MatchesOpcode w o) :
    decode w = if o.form.layout.specifiersInRange (fieldsOf w) = false then .error .specifierOutOfRange
      else .ok (o.assemble (fieldsOf w)) := by
  rw [decode_of_code h.1, h.2]
  rfl

/-- A word that no opcode matches is refused at step 1 or 2. -/
theorem decode_of_no_match {w : Word} (h : ∀ o, ¬ MatchesOpcode w o) :
    decode w = .error .reservedOpcode ∨ decode w = .error .unusedFieldNonzero := by
  by_cases hop : ∃ o : Opcode, o.code = opField w
  · obtain ⟨o, ho⟩ := hop
    have hunused : o.form.layout.unusedZero (fieldsOf w) = false := by simpa [MatchesOpcode, ho] using h o
    exact .inr (by rw [decode_of_code ho, if_pos hunused])
  · exact .inl (decode_of_reserved (not_exists.mp hop))

/-- Steps 1 and 2 of R52, said by the words they refuse. -/
theorem exists_matchesOpcode_iff (w : Word) :
    (∃ o, MatchesOpcode w o) ↔ decode w ≠ .error .reservedOpcode ∧ decode w ≠ .error .unusedFieldNonzero := by
  constructor
  · rintro ⟨o, ho⟩
    rw [ho.decode]
    split <;> simp
  · rintro ⟨hreserved, hunused⟩
    by_contra h
    exact (decode_of_no_match (not_exists.mp h)).elim hreserved hunused

/-- The words that decode, and the command each decodes to: steps 1 to 3 of R52. -/
theorem decode_eq_ok_iff {w : Word} {i : Instr} :
    decode w = .ok i ↔ ∃ o, MatchesOpcode w o ∧ o.form.layout.specifiersInRange (fieldsOf w) = true ∧
      o.assemble (fieldsOf w) = i := by
  constructor
  · intro h
    obtain ⟨o, ho⟩ := (exists_matchesOpcode_iff w).mpr (by simp [h])
    rw [ho.decode] at h
    split at h
    · cases h
    · next hrange => exact ⟨o, ho, by simpa using hrange, by simpa using h⟩
  · rintro ⟨o, ho, hrange, rfl⟩
    rw [ho.decode, hrange]
    rfl

/-! ## The encoder's operands (R46, R47, R51) -/

/-- The encoder writes zero in every field the form does not use. -/
theorem unusedZero_fields (i : Instr) : i.opcode.form.layout.unusedZero i.fields = true := by
  cases i <;> rfl

/-- The encoder writes register specifiers in range. -/
theorem specifiersInRange_fields (i : Instr) : i.opcode.form.layout.specifiersInRange i.fields = true := by
  cases i <;>
    simp [Instr.opcode, Instr.fields, Opcode.form, OpForm.layout, Layout.specifiersInRange, FieldUse.inRange,
      Config.numScalars, Config.numPolys]

/-- What the encoder writes is what the decoder reads. -/
theorem assemble_fields (i : Instr) : i.opcode.assemble i.fields = i := by
  cases i <;> simp [Instr.opcode, Instr.fields, Opcode.assemble]

theorem matchesOpcode_encode (i : Instr) : MatchesOpcode (encode i) i.opcode :=
  ⟨(opField_encode i).symm, by rw [fieldsOf_encode, unusedZero_fields]⟩

/-- Settles O2: the word passes steps 1 to 3 with the command's own opcode and fields. -/
theorem decodeOfEncodeIsTheCommand : Obligations.DecodeOfEncodeIsTheCommand := by
  intro i
  rw [decode_eq_ok_iff, fieldsOf_encode]
  exact ⟨i.opcode, matchesOpcode_encode i, specifiersInRange_fields i, assemble_fields i⟩

/-- Settles O1: each word is evaluated. -/
theorem specWordsDecodeToTheirCommands : Obligations.SpecWordsDecodeToTheirCommands := by
  unfold Obligations.SpecWordsDecodeToTheirCommands
  decide

@[simp] theorem opcode_assemble (o : Opcode) (f : Fields) : (o.assemble f).opcode = o := by cases o <;> rfl

/-- What the encoder writes for the register that a specifier names, and zero where the form uses none. -/
def FieldUse.rewritten : FieldUse → BitVec 4 → BitVec 4
  | .unused, _ => 0
  | .scalar, v => scalarSpec (scalarOf v)
  | .poly, v => polySpec (polyOf v)

/-- A field that passes steps 2 and 3 is the one the encoder writes (R47, R51). -/
theorem rewritten_eq_self {use : FieldUse} {v : BitVec 4} (hzero : use.unusedOk v = true)
    (hrange : use.inRange v = true) : use.rewritten v = v := by
  cases use with
  | unused => exact (beq_iff_eq.mp hzero).symm
  | scalar => exact scalarSpec_scalarOf (of_decide_eq_true hrange)
  | poly => exact polySpec_polyOf (of_decide_eq_true hrange)

/-- The encoder follows the operand form of the opcode, field by field (R46). -/
theorem fields_assemble (o : Opcode) (f : Fields) :
    (o.assemble f).fields = ⟨o.form.layout.d.rewritten f.d, o.form.layout.a.rewritten f.a,
      o.form.layout.b.rewritten f.b, o.form.layout.e.rewritten f.e, if o.form.layout.usesImm then f.imm else 0⟩ := by
  cases o <;> rfl

/-- The fields of a command made from legal fields are those fields. -/
theorem fields_assemble_of_legal {o : Opcode} {f : Fields} (hzero : o.form.layout.unusedZero f = true)
    (hrange : o.form.layout.specifiersInRange f = true) : (o.assemble f).fields = f := by
  simp only [Layout.unusedZero, Layout.specifiersInRange, Bool.and_eq_true] at hzero hrange
  obtain ⟨⟨⟨⟨hd, ha⟩, hb⟩, he⟩, himm⟩ := hzero
  obtain ⟨⟨⟨hd', ha'⟩, hb'⟩, he'⟩ := hrange
  rw [fields_assemble]
  refine Fields.ext (rewritten_eq_self hd hd') (rewritten_eq_self ha ha') (rewritten_eq_self hb hb')
    (rewritten_eq_self he he') ?_
  cases hi : o.form.layout.usesImm with
  | true => rfl
  | false =>
    rw [hi, Bool.false_or, beq_iff_eq] at himm
    exact himm.symm

/-- Settles O3: the command has the word's opcode and fields, and a word is made of these. -/
theorem decodedWordIsTheEncoding : Obligations.DecodedWordIsTheEncoding := by
  intro w i h
  obtain ⟨o, ⟨hcode, hzero⟩, hrange, rfl⟩ := decode_eq_ok_iff.mp h
  calc encode (o.assemble (fieldsOf w))
      = pack o.code (fieldsOf w) := by rw [encode, opcode_assemble, fields_assemble_of_legal hzero hrange]
    _ = w := by rw [hcode, pack_opField_fieldsOf]

/-! ## The opcode table (R49) -/

/-- The mask bits over a specifier field: all where the form does not use it. -/
def FieldUse.mask : FieldUse → BitVec 4
  | .unused => 0xF
  | .scalar => 0
  | .poly => 0

/-- The mask over the operand fields of a form. -/
def Layout.mask (l : Layout) : Fields := ⟨l.d.mask, l.a.mask, l.b.mask, l.e.mask, if l.usesImm then 0 else 0xFF⟩

/-- The row of the opcode table that the opcode and its form determine. -/
def Opcode.row (o : Opcode) : OpcodeRow :=
  ⟨o.mnemonic, pack o.code ⟨0, 0, 0, 0, 0⟩, pack 0xFF o.form.layout.mask⟩

/-- The table of the spec is that of the model's opcodes and forms. -/
theorem opcodeTable_eq : opcodeTable = Opcode.all.map Opcode.row := by decide

theorem mem_all (o : Opcode) : o ∈ Opcode.all := by cases o <;> decide

theorem mem_opcodeTable_iff {r : OpcodeRow} : r ∈ opcodeTable ↔ ∃ o : Opcode, o.row = r := by
  simp [opcodeTable_eq, mem_all]

theorem pack_inj {op op' : Byte} {f f' : Fields} : pack op f = pack op' f' ↔ op = op' ∧ f = f' := by
  refine ⟨fun h => ⟨?_, ?_⟩, fun ⟨hop, hf⟩ => hop ▸ hf ▸ rfl⟩
  · simpa using congrArg opField h
  · simpa using congrArg fieldsOf h

theorem and_mask_eq_zero_iff (use : FieldUse) (v : BitVec 4) : v &&& use.mask = 0 ↔ use.unusedOk v = true := by
  cases use
  · revert v; decide
  · simp [FieldUse.mask, FieldUse.unusedOk]
  · simp [FieldUse.mask, FieldUse.unusedOk]

theorem and_immMask_eq_zero_iff (usesImm : Bool) (v : Byte) :
    v &&& (if usesImm then 0 else 0xFF) = 0 ↔ (usesImm || v == 0) = true := by
  cases usesImm
  · revert v; decide
  · simp

/-- The row's mask leaves of the operand fields exactly the unused ones. -/
theorem masked_fields_eq_zero_iff (l : Layout) (f : Fields) :
    (⟨f.d &&& l.mask.d, f.a &&& l.mask.a, f.b &&& l.mask.b, f.e &&& l.mask.e, f.imm &&& l.mask.imm⟩ : Fields) =
      ⟨0, 0, 0, 0, 0⟩ ↔ l.unusedZero f = true := by
  simp only [Fields.mk.injEq, Layout.mask, and_mask_eq_zero_iff, and_immMask_eq_zero_iff, Layout.unusedZero,
    Bool.and_eq_true, and_assoc]

/-- Matching a row is passing steps 1 and 2 of R52 with its opcode. -/
theorem and_row_mask_eq_iff (w : Word) (o : Opcode) : w &&& o.row.mask = o.row.matchBits ↔ MatchesOpcode w o := by
  have hones : (0xFF : Byte) = BitVec.allOnes 8 := by decide
  calc w &&& o.row.mask = o.row.matchBits
      ↔ pack (opField w) (fieldsOf w) &&& o.row.mask = o.row.matchBits := by rw [pack_opField_fieldsOf]
    _ ↔ MatchesOpcode w o := by
      rw [Opcode.row, pack_and, pack_inj, masked_fields_eq_zero_iff, hones, BitVec.and_allOnes, eq_comm, MatchesOpcode]

theorem nodup_mnemonics : (Opcode.all.map Opcode.mnemonic).Nodup := by decide

theorem mnemonic_inj {o p : Opcode} (h : o.mnemonic = p.mnemonic) : o = p :=
  List.inj_on_of_nodup_map nodup_mnemonics (mem_all o) (mem_all p) h

/-- Settles O4: a word matches the row of an opcode exactly when it passes steps 1 and 2 with this opcode, and no other
opcode has its mnemonic. -/
theorem tableRowsMatchExactlyStepsOneAndTwo : Obligations.TableRowsMatchExactlyStepsOneAndTwo := by
  refine ⟨fun w => ?_, fun w i h row hrow => ?_⟩
  · simp only [← exists_matchesOpcode_iff, mem_opcodeTable_iff, ← and_row_mask_eq_iff, exists_exists_eq_and]
  · obtain ⟨p, rfl⟩ := mem_opcodeTable_iff.mp hrow
    obtain ⟨o, ho, -, rfl⟩ := decode_eq_ok_iff.mp h
    rw [and_row_mask_eq_iff, opcode_assemble]
    exact ⟨fun hp => congrArg Opcode.mnemonic (hp.unique ho), fun hname => mnemonic_inj hname ▸ ho⟩

end Sys2Proof

/-! Answers (R53, R141 to R143): the error or data each command answers with, and the words answered with
IllegalCommand. -/

namespace Sys2Proof.Machine

/-! ## What a command answers -/

/-- Every answer of command i in state s, whatever the tables hold: an error that R143 lists for it, IllegalCommand for
an illegal form, what RSENC's division would raise on tables without R61's contents; data and nothing written, where the
command returns data; data 0 and whatever was written, but no response yet. -/
inductive CommandAnswer (i : Instr) (s : State) : Except ErrorKind (State × Half) → Prop where
  | own {k : ErrorKind} (hk : k ∈ ownErrors i) : CommandAnswer i s (.error k)
  | illegalForm (hi : i.wellFormed = false) : CommandAnswer i s (.error .illegalCommand)
  | rsencDivision {d a : PReg} {n : Byte} (hi : i = .rsenc d a n) : CommandAnswer i s (.error .divisionByZero)
  | data (hi : returnsData i = true) (data : Half) : CommandAnswer i s (.ok (s, data))
  | done {t : State} (ht : t.responses = s.responses) : CommandAnswer i s (.ok (t, 0))

section
variable {i : Instr} {s : State} {x : Except ErrorKind (State × Half)}

theorem CommandAnswer.ite_own {c : Prop} [Decidable c] {k : ErrorKind} (hk : k ∈ ownErrors i)
    (h : ¬ c → CommandAnswer i s x) : CommandAnswer i s (if c then .error k else x) := by
  split
  · exact .own hk
  · next hc => exact h hc

theorem CommandAnswer.map {α : Type} {y : Except ErrorKind α} {f : α → State × Half}
    (herror : ∀ k, y = .error k → CommandAnswer i s (.error k)) (hok : ∀ a, CommandAnswer i s (.ok (f a))) :
    CommandAnswer i s (y.map f) := by
  match y with
  | .error k => exact herror k rfl
  | .ok a => exact hok a

theorem CommandAnswer.append {d : PReg} (hi : .lengthOverflow ∈ ownErrors i) (v : Byte) :
    CommandAnswer i s (appendCoefficient d v s) := .ite_own hi fun _ => .done rfl

end

theorem eq_divisionByZero_of_gfDiv {t : Tables} {a b : Byte} {k : ErrorKind} (h : gfDiv t a b = .error k) :
    k = .divisionByZero := by
  unfold gfDiv at h
  split at h
  · cases h; rfl
  · cases h

theorem eq_indexRange_of_coefficientAt {a : PReg} {j : Byte} {s : State} {k : ErrorKind}
    (h : coefficientAt a j s = .error k) : k = .indexRange := by
  obtain ⟨-, he⟩ | ⟨hj, ho⟩ := coefficientAt_cases a j s
  · cases he.symm.trans h; rfl
  · cases ho.symm.trans h

theorem eq_divisionByZero_of_polyDivrem {t : Tables} {p d : Poly} {k : ErrorKind}
    (h : polyDivrem t p d = .error k) : k = .divisionByZero := by
  obtain ⟨-, he⟩ | ⟨-, -, ho⟩ := polyDivrem_cases t p d
  · cases he.symm.trans h; rfl
  · cases ho.symm.trans h

theorem rsEncode_error_cases {t : Tables} {m : Poly} {n : Nat} {k : ErrorKind} (h : rsEncode t m n = .error k) :
    k = .invalidInput ∨ k = .divisionByZero := by
  unfold rsEncode at h
  split at h
  · cases h; exact .inl rfl
  · match hd : polyDivrem t (shiftLeft m n) (genPoly t n) with
    | .error j =>
      rw [hd] at h
      cases h
      exact .inr (eq_divisionByZero_of_polyDivrem hd)
    | .ok qr =>
      rw [hd] at h
      cases h

/-- The meaning of every command ends in one of the listed answers. -/
theorem exec_answer (i : Instr) (s : State) : ∃ x, exec i s = deliver s x ∧ CommandAnswer i s x := by
  cases i with
  | nop | clrerr | sli | gfadd | gfsub | gfmul | gfpow | gfpowi | peval | pclr | pmov | padd | psub =>
    refine ⟨_, rfl, .done ?_⟩
    rfl
  | srd | plen | pdeg => exact ⟨_, rfl, .data rfl _⟩
  | csrrd n =>
    refine ⟨_, rfl, ?_⟩
    split
    · exact .data rfl _
    · next h0 =>
      split
      · exact .data rfl _
      · next h1 => exact .illegalForm (by simpa [Instr.wellFormed] using And.intro h0 h1)
  | gfdiv =>
    exact ⟨_, rfl, .map (fun k h => .own (by simp [eq_divisionByZero_of_gfDiv h, ownErrors])) fun _ => .done rfl⟩
  | gflog | gfalog => exact ⟨_, rfl, .ite_own (by simp [ownErrors]) fun _ => .done rfl⟩
  | papp | papps => exact ⟨_, rfl, .append (by simp [ownErrors]) _⟩
  | prd =>
    exact ⟨_, rfl, .map (fun k h => .own (by simp [eq_indexRange_of_coefficientAt h, ownErrors]))
      fun _ => .data rfl _⟩
  | pget =>
    exact ⟨_, rfl, .map (fun k h => .own (by simp [eq_indexRange_of_coefficientAt h, ownErrors])) fun _ => .done rfl⟩
  | pmul => exact ⟨_, rfl, .ite_own (by simp [ownErrors]) fun _ => .done rfl⟩
  | pdivr q r a b =>
    refine ⟨_, rfl, ?_⟩
    split
    · next hqr => exact .illegalForm (by simp [Instr.wellFormed, hqr])
    · exact .map (fun k h => .own (by simp [eq_divisionByZero_of_polyDivrem h, ownErrors])) fun _ => .done rfl
  | genpoly =>
    exact ⟨_, rfl, .ite_own (by simp [ownErrors]) fun _ => .ite_own (by simp [ownErrors]) fun _ => .done rfl⟩
  | pshl => exact ⟨_, rfl, .ite_own (by simp [ownErrors]) fun _ => .done rfl⟩
  | rsenc d a n =>
    refine ⟨_, rfl, .ite_own (by simp [ownErrors]) fun _ => .ite_own (by simp [ownErrors]) fun _ => ?_⟩
    refine .map (fun k h => ?_) fun _ => .done rfl
    obtain rfl | rfl := rsEncode_error_cases h
    · exact .own (by simp [ownErrors])
    · exact .rsencDivision rfl

/-! ## The layout of the responses (R53) -/

theorem responseWord_data (code : BitVec 4) (data : Half) : (responseWord code data).toNat % 2 ^ 16 = data.toNat := by
  have := data.isLt
  rw [responseWord_toNat]
  omega

/-- An answer is delivered as one response of R53's layout, which carries data only where R53 allows it. -/
theorem CommandAnswer.response {i : Instr} {s t : State} {x : Except ErrorKind (State × Half)}
    (h : CommandAnswer i s x) (ht : deliver s x = .next t) :
    ∃ r, t.responses = s.responses ++ [r] ∧ ResponseLayout r ∧ (returnsData i = false → r.toNat % 2 ^ 16 = 0) := by
  cases h with
  | own | illegalForm | rsencDivision =>
    cases ht
    exact ⟨_, rfl, responseLayout_error _, fun _ => responseWord_data _ 0⟩
  | data hi data =>
    cases ht
    exact ⟨_, rfl, responseLayout_ok data, fun hno => absurd hi (by simp [hno])⟩
  | @done u hu =>
    cases ht
    exact ⟨_, congrArg (· ++ _) hu, responseLayout_ok 0, fun _ => responseWord_data 0 0⟩

theorem exec_response {i : Instr} {s t : State} (h : exec i s = .next t) :
    ∃ r, t.responses = s.responses ++ [r] ∧ ResponseLayout r ∧ (returnsData i = false → r.toNat % 2 ^ 16 = 0) := by
  obtain ⟨x, hx, hanswer⟩ := exec_answer i s
  exact hanswer.response (hx.symm.trans h)

/-- A word the decoder refuses is answered with IllegalCommand and no data, every other word as its command. -/
theorem executeWord_response {w : Word} {s t : State} (h : executeWord w s = .next t) :
    ∃ r, t.responses = s.responses ++ [r] ∧ ResponseLayout r ∧
      ((∀ i, decode w = .ok i → returnsData i = false) → r.toNat % 2 ^ 16 = 0) := by
  obtain ⟨_, -, he⟩ | ⟨i, hdec, he⟩ := executeWord_cases w s
  · cases he.symm.trans h
    exact ⟨_, rfl, responseLayout_error .illegalCommand, fun _ => responseWord_data _ 0⟩
  · obtain ⟨r, hr, hlayout, hdata⟩ := exec_response (he.symm.trans h)
    exact ⟨r, hr, hlayout, fun hno => hdata (hno i hdec)⟩

/-- Only the execution of a word answers, and it answers once. -/
theorem step_response {s t : State} (h : step s = .next t) :
    t.responses = s.responses ∨ ∃ r, t.responses = s.responses ++ [r] ∧ ResponseLayout r := by
  obtain ⟨_, -, hs⟩ | ⟨-, -, hs⟩ | ⟨-, -, hs⟩ | ⟨-, w, rest, -, hs⟩ | ⟨-, _, _, -, hs⟩ := step_cases s
  · cases hs.symm.trans h
    exact .inl rfl
  · cases hs.symm.trans h
    exact .inl rfl
  · cases hs.symm.trans h
    exact .inl rfl
  · have hanswered := executeWord_answered (hs.symm.trans h)
    exact .inr hanswered
  · cases hs.symm.trans h
    exact .inl rfl

/-- Settles O14: the response of a word, of a command and of a step. -/
theorem responsesHaveTheirLayout : Obligations.ResponsesHaveTheirLayout := by
  refine ⟨fun w s => ?_, fun _ _ _ h => exec_response h, fun _ _ h => step_response h⟩
  obtain ⟨t, ht⟩ := executeWord_next w s
  obtain ⟨r, hr⟩ := executeWord_response ht
  exact ⟨t, r, ht, hr⟩

/-! ## Legal words, by their numbers (R45, R47, R51, R52) -/

theorem opField_toNat (w : Word) : (opField w).toNat = w.toNat / 2 ^ 24 := by
  have := w.isLt
  simp only [opField, BitVec.extractLsb'_toNat, Nat.shiftRight_eq_div_pow]
  omega

section
variable (w : Word)

theorem fieldsOf_d_toNat : (fieldsOf w).d.toNat = w.toNat / 2 ^ 20 % 16 := by
  simp [fieldsOf, BitVec.extractLsb'_toNat, Nat.shiftRight_eq_div_pow]

theorem fieldsOf_a_toNat : (fieldsOf w).a.toNat = w.toNat / 2 ^ 16 % 16 := by
  simp [fieldsOf, BitVec.extractLsb'_toNat, Nat.shiftRight_eq_div_pow]

theorem fieldsOf_b_toNat : (fieldsOf w).b.toNat = w.toNat / 2 ^ 12 % 16 := by
  simp [fieldsOf, BitVec.extractLsb'_toNat, Nat.shiftRight_eq_div_pow]

theorem fieldsOf_e_toNat : (fieldsOf w).e.toNat = w.toNat / 2 ^ 8 % 16 := by
  simp [fieldsOf, BitVec.extractLsb'_toNat, Nat.shiftRight_eq_div_pow]

theorem fieldsOf_imm_toNat : (fieldsOf w).imm.toNat = w.toNat % 256 := by
  simp [fieldsOf, BitVec.extractLsb'_toNat]

end

/-- A specifier is legal when it passes steps 2 and 3 of R52. -/
theorem fieldLegal_iff (use : FieldUse) (v : BitVec 4) :
    FieldLegal use v.toNat ↔ use.unusedOk v = true ∧ use.inRange v = true := by
  cases use <;> (revert v; unfold FieldLegal; decide)

/-- Every field holds a value its form allows: steps 2 and 3 of R52. -/
theorem layout_legal_iff (l : Layout) (f : Fields) :
    (FieldLegal l.d f.d.toNat ∧ FieldLegal l.a f.a.toNat ∧ FieldLegal l.b f.b.toNat ∧ FieldLegal l.e f.e.toNat ∧
      (l.usesImm = false → f.imm.toNat = 0)) ↔
    l.unusedZero f = true ∧ l.specifiersInRange f = true := by
  have himm : (l.usesImm = false → f.imm.toNat = 0) ↔ (l.usesImm || f.imm == 0) = true := by
    cases l.usesImm <;> simp [← BitVec.toNat_inj]
  simp only [fieldLegal_iff, himm, Layout.unusedZero, Layout.specifiersInRange, Bool.and_eq_true]
  tauto

theorem polyOf_eq_iff {v v' : BitVec 4} (h : v.toNat < 4) (h' : v'.toNat < 4) :
    polyOf v = polyOf v' ↔ v.toNat = v'.toNat := by
  rw [BitVec.toNat_inj]
  exact ⟨fun heq => by rw [← polySpec_polyOf h, heq, polySpec_polyOf h'], congrArg polyOf⟩

/-- Step 4 of R52: the two commands with illegal forms, by the numbers of their fields. -/
theorem wellFormed_assemble_iff {o : Opcode} {f : Fields} (hrange : o.form.layout.specifiersInRange f = true) :
    (o.assemble f).wellFormed = true ↔
      (o = .csrrd → f.imm.toNat ≤ 1) ∧ (o = .pdivr → f.d.toNat ≠ f.e.toNat) := by
  cases o with
  | csrrd =>
    have himm : (f.imm == 0 || f.imm == 1) = true ↔ f.imm.toNat ≤ 1 := by
      generalize f.imm = n
      revert n; decide
    simpa [Opcode.assemble, Instr.wellFormed] using himm
  | pdivr =>
    simp only [Opcode.form, OpForm.layout, Layout.specifiersInRange, FieldUse.inRange, Bool.and_eq_true,
      decide_eq_true_eq] at hrange
    obtain ⟨⟨⟨hd, -⟩, -⟩, he⟩ := hrange
    simp [Opcode.assemble, Instr.wellFormed, polyOf_eq_iff hd he]
  | _ => simp [Opcode.assemble, Instr.wellFormed]

/-- The legal words are those that decode to a well-formed command. -/
theorem legalWord_iff (w : Word) : LegalWord w ↔ ∃ i, decode w = .ok i ∧ i.wellFormed = true := by
  simp only [LegalWord, ← opField_toNat, ← fieldsOf_d_toNat, ← fieldsOf_a_toNat, ← fieldsOf_b_toNat,
    ← fieldsOf_e_toNat, ← fieldsOf_imm_toNat]
  constructor
  · rintro ⟨o, hop, hd, ha, hb, he, himm, hstep4⟩
    obtain ⟨hzero, hrange⟩ := (layout_legal_iff o.form.layout (fieldsOf w)).mp ⟨hd, ha, hb, he, himm⟩
    have hmatch : MatchesOpcode w o := ⟨BitVec.eq_of_toNat_eq hop.symm, hzero⟩
    exact ⟨_, decode_eq_ok_iff.mpr ⟨o, hmatch, hrange, rfl⟩, (wellFormed_assemble_iff hrange).mpr hstep4⟩
  · rintro ⟨i, hdec, hi⟩
    obtain ⟨o, ⟨hcode, hzero⟩, hrange, rfl⟩ := decode_eq_ok_iff.mp hdec
    obtain ⟨hd, ha, hb, he, himm⟩ := (layout_legal_iff o.form.layout (fieldsOf w)).mpr ⟨hzero, hrange⟩
    exact ⟨o, congrArg BitVec.toNat hcode.symm, hd, ha, hb, he, himm, (wellFormed_assemble_iff hrange).mp hi⟩

/-! ## IllegalCommand (R47, R50, R51) -/

theorem exec_of_not_wellFormed {i : Instr} (hi : i.wellFormed = false) (s : State) :
    exec i s = .next (s.raise .illegalCommand) := by
  cases i with
  | csrrd n =>
    obtain ⟨h0, h1⟩ : n ≠ 0 ∧ n ≠ 1 := by simpa [Instr.wellFormed] using hi
    simp only [exec, execCsrrd, if_neg h0, if_neg h1, deliver_error]
  | pdivr q r a b =>
    obtain rfl : q = r := by simpa [Instr.wellFormed] using hi
    simp [exec, execPdivr]
  | _ => cases hi

theorem illegalCommand_not_mem_ownErrors (i : Instr) : .illegalCommand ∉ ownErrors i := by
  cases i <;> simp [ownErrors]

theorem responseWord_ne_illegalCommand {code : BitVec 4} (h : code ≠ ErrorKind.illegalCommand.code) (data : Half) :
    responseWord code data ≠ 0x70000000 := by
  have hword : responseWord ErrorKind.illegalCommand.code 0 = 0x70000000 := by decide
  exact fun heq => h (responseWord_inj (heq.trans hword.symm)).1

/-- A well-formed command has another response than IllegalCommand's. -/
theorem CommandAnswer.response_ne {i : Instr} {s t : State} {x : Except ErrorKind (State × Half)}
    (h : CommandAnswer i s x) (hi : i.wellFormed = true) (ht : deliver s x = .next t) :
    ∃ r, t.responses = s.responses ++ [r] ∧ r ≠ 0x70000000 := by
  cases h with
  | @own k hk =>
    cases ht
    refine ⟨_, rfl, responseWord_ne_illegalCommand (fun hcode => ?_) 0⟩
    exact illegalCommand_not_mem_ownErrors i (code_injective hcode ▸ hk)
  | illegalForm hno => exact absurd hi (by simp [hno])
  | rsencDivision => cases ht; exact ⟨_, rfl, responseWord_ne_illegalCommand (by decide) 0⟩
  | data _ data => cases ht; exact ⟨_, rfl, responseWord_ne_illegalCommand (by decide) data⟩
  | done hu => cases ht; exact ⟨_, congrArg (· ++ _) hu, responseWord_ne_illegalCommand (by decide) 0⟩

/-- A word that is not legal raises IllegalCommand: at decoding, or in the meaning that makes check 4. -/
theorem executeWord_of_not_legalWord {w : Word} (h : ¬ LegalWord w) (s : State) :
    executeWord w s = .next (s.raise .illegalCommand) := by
  obtain ⟨_, -, he⟩ | ⟨i, hdec, he⟩ := executeWord_cases w s
  · exact he
  · have hi : i.wellFormed = false := by
      by_contra hno
      exact h ((legalWord_iff w).mpr ⟨i, hdec, by simpa using hno⟩)
    exact he.trans (exec_of_not_wellFormed hi s)

theorem executeWord_of_legalWord {w : Word} (h : LegalWord w) (s : State) :
    ∃ t r, executeWord w s = .next t ∧ t.responses = s.responses ++ [r] ∧ r ≠ 0x70000000 := by
  obtain ⟨i, hdec, hi⟩ := (legalWord_iff w).mp h
  obtain ⟨x, hx, hanswer⟩ := exec_answer i s
  obtain ⟨t, ht⟩ := deliver_next s x
  obtain ⟨r, hr, hne⟩ := hanswer.response_ne hi ht
  exact ⟨t, r, ((executeWord_of_decode hdec s).trans hx).trans ht, hr, hne⟩

/-- Settles O5: the step executes the word at the head, and the legal words are those of well-formed commands. -/
theorem illegalWordsAndOnlyTheyRaiseIllegalCommand : Obligations.IllegalWordsAndOnlyTheyRaiseIllegalCommand := by
  intro s w rest hready hhost
  rw [step_command hready hhost]
  exact ⟨fun h => ⟨_, executeWord_of_not_legalWord h _, raise_failed _ _⟩,
    fun h => executeWord_of_legalWord h (s.consume rest)⟩

end Sys2Proof.Machine

/-! Pseudo-instructions (R56): what a list of commands that all succeed leaves behind, PLOAD by induction on its list,
and the scalar ones by the inverse of the tables. -/

namespace Sys2Proof.Machine

/-! ## Lists of commands -/

@[simp] theorem execAll_nil (s : State) : execAll [] s = .next s := rfl

theorem execAll_cons {i : Instr} {is : List Instr} {s t : State} (h : exec i s = .next t) :
    execAll (i :: is) s = execAll is t := by
  simp [execAll, h]

theorem execAll_singleton (i : Instr) (s : State) : execAll [i] s = exec i s := by
  obtain ⟨r, hr⟩ := exec_eq_deliver i s
  obtain ⟨t, ht⟩ := deliver_next s r
  rw [execAll_cons (hr.trans ht), execAll_nil, hr, ht]

/-- From s to t some commands succeeded: together they wrote at most the registers of `ss` and `ps`, and each was
answered with OK and no data. -/
structure AllSucceeded (ss : List SReg) (ps : List PReg) (count : Nat) (s t : State) : Prop where
  registers : RegistersExcept ss ps s t
  control : SameControl s t
  status : SameStatus s t
  answered : t.responses = s.responses ++ List.replicate count 0

theorem allSucceeded_zero (ss : List SReg) (ps : List PReg) (s : State) : AllSucceeded ss ps 0 s s where
  registers := ⟨fun _ _ => rfl, fun _ _ => rfl⟩
  control := ⟨rfl, rfl, rfl, rfl⟩
  status := ⟨rfl, rfl⟩
  answered := (List.append_nil _).symm

section
variable {ss : List SReg} {ps : List PReg} {s t u : State}

theorem RegistersExcept.trans (h : RegistersExcept ss ps s t) (h' : RegistersExcept ss ps t u) :
    RegistersExcept ss ps s u :=
  ⟨fun i hi => (h'.scalars i hi).trans (h.scalars i hi), fun k hk => (h'.polys k hk).trans (h.polys k hk)⟩

theorem SameControl.trans (h : SameControl s t) (h' : SameControl t u) : SameControl s u :=
  ⟨h'.tables.trans h.tables, h'.tblReady.trans h.tblReady, h'.lmax.trans h.lmax, h'.host.trans h.host⟩

theorem SameStatus.trans (h : SameStatus s t) (h' : SameStatus t u) : SameStatus s u :=
  ⟨h'.errs.trans h.errs, h'.lastErr.trans h.lastErr⟩

/-- One more command, before the others. -/
theorem AllSucceeded.cons {n : Nat} (h : Succeeded ss ps 0 s t) (h' : AllSucceeded ss ps n t u) :
    AllSucceeded ss ps (n + 1) s u where
  registers := h.registers.trans h'.registers
  control := h.control.trans h'.control
  status := h.status.trans h'.status
  answered := by
    have hzero : responseWord 0 0 = 0 := by decide
    rw [h'.answered, h.answered, hzero, List.replicate_succ, List.append_assoc, List.singleton_append]

end

/-! ## PLOAD -/

theorem exec_pclr (d : PReg) (s : State) :
    ∃ t, exec (.pclr d) s = .next t ∧ t.P d = [] ∧ Succeeded [] [d] 0 s t :=
  ⟨_, rfl, State.P_setP_self s d [], succeeded_setP s d []⟩

/-- PAPP below the capacity appends its value (R126). -/
theorem exec_papp {s : State} {d : PReg} (h : (s.P d).length < s.lmax.val) (v : Byte) :
    ∃ t, exec (.papp d v) s = .next t ∧ t.P d = s.P d ++ [v] ∧ Succeeded [] [d] 0 s t := by
  obtain ⟨hfull, -⟩ | ⟨-, happend⟩ := appendCoefficient_cases d v s
  · exact absurd hfull h.ne
  · exact ⟨_, congrArg (deliver s) happend, State.P_setP_self s d _, succeeded_setP s d _⟩

/-- A list of PAPP commands that stays within the capacity appends its values in order. -/
theorem execAll_papp (d : PReg) (vs : List Byte) (s : State) (h : (s.P d).length + vs.length ≤ s.lmax.val) :
    ∃ t, execAll (vs.map (.papp d)) s = .next t ∧ t.P d = s.P d ++ vs ∧ AllSucceeded [] [d] vs.length s t := by
  induction vs generalizing s with
  | nil => exact ⟨s, rfl, (List.append_nil _).symm, allSucceeded_zero ..⟩
  | cons v vs ih =>
    rw [List.length_cons] at h
    obtain ⟨u, hexec, hu, hsucceeded⟩ := exec_papp (s := s) (d := d) (by omega) v
    have hroom : (u.P d).length + vs.length ≤ u.lmax.val := by
      rw [hu, hsucceeded.control.lmax, List.length_append, List.length_singleton]
      omega
    obtain ⟨t, hrest, ht, hall⟩ := ih u hroom
    refine ⟨t, (execAll_cons hexec).trans hrest, ?_, hall.cons hsucceeded⟩
    rw [ht, hu, List.append_assoc, List.singleton_append]

/-- Settles O58: PCLR empties the register, and the list is appended to it. -/
theorem ploadLoadsItsList : Obligations.PloadLoadsItsList := by
  intro d vs s h
  obtain ⟨u, hexec, hu, hsucceeded⟩ := exec_pclr d s
  have hroom : (u.P d).length + vs.length ≤ u.lmax.val := by
    rw [hu, hsucceeded.control.lmax, List.length_nil, Nat.zero_add]
    exact h
  obtain ⟨t, hrest, ht, hall⟩ := execAll_papp d vs u hroom
  obtain ⟨hregisters, hcontrol, hstatus, hanswered⟩ := hall.cons hsucceeded
  refine ⟨t, (execAll_cons hexec).trans hrest, ?_, hregisters, hcontrol, hstatus, hanswered⟩
  rw [ht, hu, List.nil_append]

/-! ## The logarithm as an isomorphism (R61, R63, R64) -/

set_option maxRecDepth 8000 in
theorem logAt_alogAt (i : Fin 255) : tableContents.logAt (tableContents.alogAt i) = i.val := by
  revert i; decide

theorem one_eq_alogAt : (1 : Byte) = tableContents.alogAt 0 := by decide

/-- Were 0 a power of the base, reading LOG at it would give its exponent; it gives LOG[1] (log 9). -/
theorem alogAt_ne_zero (i : Fin 255) : tableContents.alogAt i ≠ 0 := by
  intro h
  have hzero : tableContents.logAt 0 = 0 := by decide
  have hi : i = 0 := Fin.ext (by rw [← logAt_alogAt i, h, hzero]; rfl)
  rw [hi, ← one_eq_alogAt] at h
  exact absurd h (by decide)

theorem alogAt_injective : Function.Injective tableContents.alogAt := fun i j h =>
  Fin.ext (by rw [← logAt_alogAt i, h, logAt_alogAt])

/-- The powers of the base are as many as the nonzero elements, so they are all of these. -/
theorem exists_alogAt_eq {a : Byte} (ha : a ≠ 0) : ∃ i, tableContents.alogAt i = a := by
  have hcard : Fintype.card Byte = 256 := FinEnum.card_eq_fintypeCard.symm.trans (FinEnum.card_bitVec 8)
  have hpowers : Finset.univ.image tableContents.alogAt = Finset.univ.erase 0 := by
    refine Finset.eq_of_subset_of_card_le (Finset.image_subset_iff.mpr fun i _ => ?_) ?_
    · exact Finset.mem_erase.mpr ⟨alogAt_ne_zero i, Finset.mem_univ _⟩
    · rw [Finset.card_image_of_injective _ alogAt_injective, Finset.card_erase_of_mem (Finset.mem_univ _),
        Finset.card_univ, Finset.card_univ, hcard, Fintype.card_fin]
  have hmem : a ∈ Finset.univ.image tableContents.alogAt :=
    hpowers ▸ Finset.mem_erase.mpr ⟨ha, Finset.mem_univ a⟩
  obtain ⟨i, -, hi⟩ := Finset.mem_image.mp hmem
  exact ⟨i, hi⟩

/-- A product of powers adds the exponents mod 255. -/
theorem gfMul_alogAt (i j : Fin 255) :
    gfMul tableContents (tableContents.alogAt i) (tableContents.alogAt j) = tableContents.alogAt (i + j) := by
  rw [gfMul_of_ne_zero _ (alogAt_ne_zero i) (alogAt_ne_zero j), logAt_alogAt, logAt_alogAt]
  rfl

/-- A quotient of powers subtracts the exponents mod 255. -/
theorem gfQuo_alogAt (i j : Fin 255) :
    gfQuo tableContents (tableContents.alogAt i) (tableContents.alogAt j) = tableContents.alogAt (i - j) := by
  rw [gfQuo, if_neg (alogAt_ne_zero i), logAt_alogAt, logAt_alogAt]
  congr 1
  ext
  simp only [Fin.val_ofNat, Fin.val_sub]
  omega

theorem one_gfMul (a : Byte) : gfMul tableContents 1 a = a := by
  by_cases ha : a = 0
  · rw [ha, gfMul_zero_right]
  · obtain ⟨i, rfl⟩ := exists_alogAt_eq ha
    rw [one_eq_alogAt, gfMul_alogAt, zero_add]

/-- The quotient of 1 is the inverse. -/
theorem gfMul_gfQuo_one {a : Byte} (ha : a ≠ 0) : gfMul tableContents a (gfQuo tableContents 1 a) = 1 := by
  obtain ⟨i, rfl⟩ := exists_alogAt_eq ha
  rw [one_eq_alogAt, gfQuo_alogAt, gfMul_alogAt, add_sub_cancel]

/-! ## GFINV, SMOV and GFXOR -/

/-- A division by a nonzero element leaves the quotient (R70). -/
theorem exec_gfdiv_of_ne_zero (d a : SReg) {b : SReg} {s : State} (hb : s.S b ≠ 0) :
    ∃ t, exec (.gfdiv d a b) s = .next t ∧ t.S d = gfQuo s.tables (s.S a) (s.S b) ∧ Succeeded [d] [] 0 s t := by
  refine ⟨(s.setS d (gfQuo s.tables (s.S a) (s.S b))).respond 0, ?_, State.S_setS_self s d _, succeeded_setS s d _⟩
  rw [exec, execGfdiv, gfDiv_of_ne_zero _ _ hb]
  rfl

theorem exec_gfdiv_of_eq_zero (d a : SReg) {b : SReg} {s : State} (hb : s.S b = 0) :
    exec (.gfdiv d a b) s = .next (s.raise .divisionByZero) := by
  rw [exec, execGfdiv, hb, gfDiv_zero]
  rfl

/-- GFINV is a division of 1, which its first command leaves in the destination, in a state that reads every other
register as before. -/
theorem execAll_gfinv {d a : SReg} (hda : d ≠ a) (s : State) :
    ∃ u, execAll (Pseudo.gfinv d a).expand s = exec (.gfdiv d d a) u ∧ u.S d = 1 ∧ u.S a = s.S a ∧
      Succeeded [d] [] 0 s u := by
  have hsli : exec (.sli d 1) s = .next ((s.setS d 1).respond 0) := rfl
  exact ⟨_, (execAll_cons hsli).trans (execAll_singleton ..), State.S_setS_self s d 1,
    State.S_setS_ne s d 1 a hda.symm, succeeded_setS s d 1⟩

theorem gfinv_of_ne_zero {d a : SReg} {s : State} (htables : s.tables = tableContents) (hda : d ≠ a)
    (ha : s.S a ≠ 0) : ∃ t, execAll (Pseudo.gfinv d a).expand s = .next t ∧
      gfMul tableContents (s.S a) (t.S d) = 1 ∧ AllSucceeded [d] [] 2 s t := by
  obtain ⟨u, hrest, hone, hua, hsli⟩ := execAll_gfinv hda s
  obtain ⟨t, hdiv, hquo, hsucceeded⟩ := exec_gfdiv_of_ne_zero d d (hua ▸ ha)
  refine ⟨t, hrest.trans hdiv, ?_, ((allSucceeded_zero ..).cons hsucceeded).cons hsli⟩
  rw [hquo, hsli.control.tables, htables, hone, hua, gfMul_gfQuo_one ha]

theorem gfinv_of_eq_zero {d a : SReg} {s : State} (hda : d ≠ a) (ha : s.S a = 0) :
    ∃ t, execAll (Pseudo.gfinv d a).expand s = .next t ∧
      t.S d = 1 ∧ t.lastErr = ErrorKind.divisionByZero.code ∧ RegistersExcept [d] [] s t := by
  obtain ⟨u, hrest, hone, hua, hsli⟩ := execAll_gfinv hda s
  have hraise := (raise_failed u .divisionByZero).registers
  exact ⟨_, hrest.trans (exec_gfdiv_of_eq_zero d d (hua.trans ha)), hone, rfl,
    hsli.registers.trans (hraise.mono (by simp) (by simp))⟩

theorem smov_copies {d a : SReg} {s : State} (htables : s.tables = tableContents) :
    ∃ t, execAll (Pseudo.smov d a).expand s = .next t ∧ t.S d = s.S a ∧ Succeeded [d] [] 0 s t := by
  refine ⟨_, execAll_singleton .., ?_, succeeded_setS s d _⟩
  have hpow : gfPow tableContents (s.S a) 1 = s.S a := by rw [gfPow_succ, gfPow_zero, one_gfMul]
  simpa [htables] using hpow

theorem gfxor_writes (d a b : SReg) (s : State) :
    ∃ t, execAll (Pseudo.gfxor d a b).expand s = .next t ∧ t.S d = s.S a ^^^ s.S b ∧ Succeeded [d] [] 0 s t :=
  ⟨_, execAll_singleton .., by simp [gfAdd], succeeded_setS s d _⟩

/-- Settles O59: each pseudo-instruction by its own lemma, with the inverse and the neutral element from the tables'
logarithm. -/
theorem scalarPseudosDoWhatTheySay : Obligations.ScalarPseudosDoWhatTheySay := by
  intro d a b s htables
  refine ⟨fun hda ha => ?_, gfinv_of_eq_zero, smov_copies htables, gfxor_writes d a b s⟩
  obtain ⟨t, ht, hinv, hall⟩ := gfinv_of_ne_zero htables hda ha
  exact ⟨t, ht, hinv, hall.registers, hall.control, hall.status⟩

end Sys2Proof.Machine

/-! Field arithmetic (R60 to R75): the product without the tables is linear in both operands, the powers of the base
make the product through the tables the same one, and the laws of the field follow from the two. -/

namespace Sys2Proof.Machine

/-! ## The listing (R61) -/

theorem eq_zero_or_alogAt (a : Byte) : a = 0 ∨ ∃ i, a = tableContents.alogAt i := by
  by_cases ha : a = 0
  · exact .inl ha
  · obtain ⟨i, hi⟩ := exists_alogAt_eq ha
    exact .inr ⟨i, hi.symm⟩

theorem ofNat_logAt_alogAt (i : Fin 255) : Fin.ofNat 255 (tableContents.logAt (tableContents.alogAt i)) = i :=
  Fin.ext (by rw [logAt_alogAt, Fin.val_ofNat, Nat.mod_eq_of_lt i.isLt])

theorem alogAt_logAt {v : Byte} (hv : v ≠ 0) : tableContents.alogAt (Fin.ofNat 255 (tableContents.logAt v)) = v := by
  obtain ⟨i, rfl⟩ := exists_alogAt_eq hv
  rw [ofNat_logAt_alogAt]

/-! ## The procedure of R61 -/

set_option maxRecDepth 8000 in
/-- The doubling of the procedure goes from each listed power to the next one. -/
theorem doubled_alogAt (i : Fin 255) :
    doubled (tableContents.alogAt i).toNat = (tableContents.alogAt (i + 1)).toNat := by
  revert i; decide

/-- The entries of the powers below i stand in t as in the listing. -/
def FilledBelow (i : Nat) (t : Tables) : Prop :=
  ∀ j : Fin 255, j.val < i → t.alogAt j = tableContents.alogAt j ∧ t.logAt (tableContents.alogAt j) = j.val

theorem alogAt_enter (t : Tables) (i j : Fin 255) (v : Byte) :
    (t.enter i v.toNat).alogAt j = if i = j then v else t.alogAt j := by
  simp [Tables.alogAt, Tables.enter, Vector.getElem_setIfInBounds, Fin.ext_iff]

/-- Different nonzero elements have different entries in LOG. -/
theorem logAt_enter (t : Tables) (i : Fin 255) {v w : Byte} (hv : v ≠ 0) (hw : w ≠ 0) :
    (t.enter i v.toNat).logAt w = if v = w then i.val else t.logAt w := by
  have hentry : v.toNat - 1 = w.toNat - 1 ↔ v = w := by bv_omega
  have hi : i.val % 2 ^ 8 = i.val := by omega
  simp only [Tables.logAt, Tables.enter, Vector.getElem_setIfInBounds, hentry]
  split
  · rw [BitVec.toNat_ofNat, hi]
  · rfl

/-- One turn of the loop fills the entries of one more power. -/
theorem FilledBelow.enter {i : Fin 255} {t : Tables} (h : FilledBelow i t) :
    FilledBelow (i + 1) (t.enter i (tableContents.alogAt i).toNat) := by
  intro j hj
  rw [alogAt_enter, logAt_enter t i (alogAt_ne_zero i) (alogAt_ne_zero j)]
  by_cases hij : i = j
  · simp [hij]
  · rw [if_neg hij, if_neg (alogAt_injective.ne hij)]
    exact h j (by omega)

/-- The last n turns of the loop fill what the turns before them have left. -/
theorem filledBelow_fillFrom {n i : Nat} {t : Tables} (hn : i + n = 255) (h : FilledBelow i t) :
    FilledBelow 255 (Tables.fillFrom n i (tableContents.alogAt (Fin.ofNat 255 i)).toNat t) := by
  induction n generalizing i t with
  | zero =>
    obtain rfl : i = 255 := hn
    exact h
  | succ n ih =>
    have hi : (Fin.ofNat 255 i).val = i := Nat.mod_eq_of_lt (by omega)
    have hnext : Fin.ofNat 255 i + 1 = Fin.ofNat 255 (i + 1) := Fin.ext (by simp [Fin.val_add])
    have henter := FilledBelow.enter (i := Fin.ofNat 255 i) (t := t) (by rwa [hi])
    rw [hi] at henter
    rw [Tables.fillFrom, doubled_alogAt, hnext]
    exact ih (by omega) henter

theorem eq_tableContents_of_filledBelow {t : Tables} (h : FilledBelow 255 t) : t = tableContents := by
  have halog : t.alog = tableContents.alog := Vector.ext fun j hj => (h ⟨j, hj⟩ hj).1
  have hlog : t.log = tableContents.log := by
    refine Vector.ext fun j hj => BitVec.eq_of_toNat_eq ?_
    obtain ⟨i, hi⟩ := exists_alogAt_eq (a := BitVec.ofNat 8 (j + 1)) (by bv_omega)
    have hentry := (h i i.isLt).2.trans (logAt_alogAt i).symm
    have hindex : (j + 1) % 256 - 1 = j := by omega
    simpa [hi, Tables.logAt, hindex] using hentry
  cases t
  cases halog
  cases hlog
  rfl

theorem fill_eq_tableContents (t : Tables) : t.fill = tableContents := by
  have hnone : FilledBelow 0 t := fun _ hj => absurd hj (Nat.not_lt_zero _)
  have hfirst : (tableContents.alogAt (Fin.ofNat 255 0)).toNat = 1 := by decide
  have hall := filledBelow_fillFrom (Nat.zero_add 255) hnone
  rw [hfirst] at hall
  exact eq_tableContents_of_filledBelow hall

/-- Settles O46: turn by turn the loop enters one more power of the base. -/
theorem tableProcedureGivesTheListing : Obligations.TableProcedureGivesTheListing :=
  ⟨fill_eq_tableContents, fun i => ⟨logAt_alogAt i, alogAt_ne_zero i⟩, fun _ => alogAt_logAt⟩

/-! ## The product without the tables is linear in both operands (R66) -/

/-- A loop whose turns are additive is additive. -/
theorem foldl_xor {n : Nat} {f g h : BitVec n → Nat → BitVec n} (hturn : ∀ r s i, h (r ^^^ s) i = f r i ^^^ g s i)
    (l : List Nat) (r s : BitVec n) : l.foldl h (r ^^^ s) = l.foldl f r ^^^ l.foldl g s := by
  induction l generalizing r s with
  | nil => rfl
  | cons i l ih => rw [List.foldl_cons, hturn, ih]; rfl

/-- One turn of the first loop of R66. -/
def productTurn (a b : Byte) (r : BitVec 15) (i : Nat) : BitVec 15 :=
  if b.getLsbD i then r ^^^ (a.setWidth 15 <<< i) else r

/-- One turn of the second loop of R66. -/
def reductionTurn (r : BitVec 15) (i : Nat) : BitVec 15 :=
  if r.getLsbD i then r ^^^ (BitVec.ofNat 15 Config.prim <<< (i - 8)) else r

theorem carrylessProduct_eq (a b : Byte) : carrylessProduct a b = (List.range 8).foldl (productTurn a b) 0 := rfl

theorem clmulReduce_eq (a b : Byte) :
    clmulReduce a b = ([14, 13, 12, 11, 10, 9, 8].foldl reductionTurn (carrylessProduct a b)).setWidth 8 := rfl

section
variable {n : Nat} (r s m m' : BitVec n)

theorem xor_xor_xor_swap : r ^^^ s ^^^ (m ^^^ m') = r ^^^ m ^^^ (s ^^^ m') := by ac_rfl

/-- The same summand under the exclusive-or of two conditions. -/
theorem ite_xor_eq_xor_ite (p q : Bool) :
    (if p ^^ q then r ^^^ s ^^^ m else r ^^^ s) = (if p then r ^^^ m else r) ^^^ if q then s ^^^ m else s := by
  cases p <;> cases q
  · rfl
  · exact BitVec.xor_assoc r s m
  · change r ^^^ s ^^^ m = r ^^^ m ^^^ s
    ac_rfl
  · change r ^^^ s = r ^^^ m ^^^ (s ^^^ m)
    rw [xor_xor_xor_swap, BitVec.xor_self, BitVec.xor_zero]

end

theorem productTurn_xor_left (a a' b : Byte) (r s : BitVec 15) (i : Nat) :
    productTurn (a ^^^ a') b (r ^^^ s) i = productTurn a b r i ^^^ productTurn a' b s i := by
  unfold productTurn
  split
  · rw [BitVec.setWidth_xor, BitVec.shiftLeft_xor_distrib, xor_xor_xor_swap]
  · rfl

theorem productTurn_xor_right (a b b' : Byte) (r s : BitVec 15) (i : Nat) :
    productTurn a (b ^^^ b') (r ^^^ s) i = productTurn a b r i ^^^ productTurn a b' s i := by
  simp only [productTurn, BitVec.getLsbD_xor, ite_xor_eq_xor_ite]

theorem reductionTurn_xor (r s : BitVec 15) (i : Nat) :
    reductionTurn (r ^^^ s) i = reductionTurn r i ^^^ reductionTurn s i := by
  simp only [reductionTurn, BitVec.getLsbD_xor, ite_xor_eq_xor_ite]

theorem carrylessProduct_xor_left (a a' b : Byte) :
    carrylessProduct (a ^^^ a') b = carrylessProduct a b ^^^ carrylessProduct a' b :=
  foldl_xor (productTurn_xor_left a a' b) (List.range 8) 0 0

theorem carrylessProduct_xor_right (a b b' : Byte) :
    carrylessProduct a (b ^^^ b') = carrylessProduct a b ^^^ carrylessProduct a b' :=
  foldl_xor (productTurn_xor_right a b b') (List.range 8) 0 0

theorem clmulReduce_xor_left (a a' b : Byte) : clmulReduce (a ^^^ a') b = clmulReduce a b ^^^ clmulReduce a' b := by
  simp only [clmulReduce_eq, carrylessProduct_xor_left, foldl_xor reductionTurn_xor, BitVec.setWidth_xor]

theorem clmulReduce_xor_right (a b b' : Byte) : clmulReduce a (b ^^^ b') = clmulReduce a b ^^^ clmulReduce a b' := by
  simp only [clmulReduce_eq, carrylessProduct_xor_right, foldl_xor reductionTurn_xor, BitVec.setWidth_xor]

theorem clmulReduce_zero_left (b : Byte) : clmulReduce 0 b = 0 := by
  have h := clmulReduce_xor_left 0 0 b
  rwa [BitVec.xor_self, BitVec.xor_self] at h

theorem clmulReduce_zero_right (a : Byte) : clmulReduce a 0 = 0 := by
  have h := clmulReduce_xor_right a 0 0
  rwa [BitVec.xor_self, BitVec.xor_self] at h

/-! ## The product of powers of the base, without the tables -/

/-- Clearing the set bits from the highest down leads to zero. -/
theorem xor_induction {w : Nat} {P : BitVec w → Prop} (zero : P 0) (twoPow : ∀ i < w, P (BitVec.twoPow w i))
    (xor : ∀ a b, P a → P b → P (a ^^^ b)) (a : BitVec w) : P a := by
  suffices h : ∀ n (a : BitVec w), (∀ i, n ≤ i → a.getLsbD i = false) → P a from
    h w a fun i hi => BitVec.getLsbD_of_ge a i hi
  intro n
  induction n with
  | zero =>
    intro a ha
    obtain rfl : a = 0 := BitVec.eq_of_getLsbD_eq fun i _ => (ha i (Nat.zero_le i)).trans BitVec.getLsbD_zero.symm
    exact zero
  | succ n ih =>
    intro a ha
    by_cases hbit : a.getLsbD n = true
    · have hn := BitVec.lt_of_getLsbD hbit
      have hrest : P (a ^^^ BitVec.twoPow w n) := by
        refine ih _ fun i hi => ?_
        rw [BitVec.getLsbD_xor, BitVec.getLsbD_twoPow]
        obtain rfl | hlt := hi.eq_or_lt
        · simp [hbit, hn]
        · simp [ha i hlt, hlt.ne]
      have hsum := xor _ _ hrest (twoPow n hn)
      rwa [BitVec.xor_assoc, BitVec.xor_self, BitVec.xor_zero] at hsum
    · refine ih a fun i hi => ?_
      obtain rfl | hlt := hi.eq_or_lt
      · exact Bool.eq_false_iff.mpr hbit
      · exact ha i hlt

set_option maxRecDepth 8000 in
theorem clmulReduce_twoPow_assoc_two : ∀ i < 8, ∀ j < 8,
    clmulReduce (BitVec.twoPow 8 i) (clmulReduce (BitVec.twoPow 8 j) 2) =
      clmulReduce (clmulReduce (BitVec.twoPow 8 i) (BitVec.twoPow 8 j)) 2 := by decide

/-- Both sides are additive in a and in b, so the powers of x decide. -/
theorem clmulReduce_assoc_two (a b : Byte) :
    clmulReduce a (clmulReduce b 2) = clmulReduce (clmulReduce a b) 2 := by
  induction a using xor_induction with
  | zero => simp only [clmulReduce_zero_left]
  | xor a a' ha ha' => simp only [clmulReduce_xor_left, ha, ha']
  | twoPow i hi =>
    induction b using xor_induction with
    | zero => simp only [clmulReduce_zero_left, clmulReduce_zero_right]
    | xor b b' hb hb' => simp only [clmulReduce_xor_left, clmulReduce_xor_right, hb, hb']
    | twoPow j hj => exact clmulReduce_twoPow_assoc_two i hi j hj

theorem clmulReduce_one_right (a : Byte) : clmulReduce a 1 = a := by
  induction a using xor_induction with
  | zero => exact clmulReduce_zero_left 1
  | xor a a' ha ha' => rw [clmulReduce_xor_left, ha, ha']
  | twoPow i hi => revert i; decide

set_option maxRecDepth 8000 in
theorem clmulReduce_alogAt_two (i : Fin 255) :
    clmulReduce (tableContents.alogAt i) 2 = tableContents.alogAt (i + 1) := by
  revert i; decide

theorem clmulReduce_alogAt (i j : Fin 255) :
    clmulReduce (tableContents.alogAt i) (tableContents.alogAt j) = tableContents.alogAt (i + j) := by
  induction j using Fin.induction with
  | zero => rw [← one_eq_alogAt, clmulReduce_one_right, add_zero]
  | succ j ih =>
    rw [← Fin.coeSucc_eq_succ, ← clmulReduce_alogAt_two, clmulReduce_assoc_two, ih, clmulReduce_alogAt_two, add_assoc]

/-- Both products vanish at zero and add the exponents of powers of the base. -/
theorem gfMul_eq_clmulReduce (a b : Byte) : gfMul tableContents a b = clmulReduce a b := by
  obtain rfl | ⟨i, rfl⟩ := eq_zero_or_alogAt a
  · rw [gfMul_zero_left, clmulReduce_zero_left]
  obtain rfl | ⟨j, rfl⟩ := eq_zero_or_alogAt b
  · rw [gfMul_zero_right, clmulReduce_zero_right]
  rw [gfMul_alogAt, clmulReduce_alogAt]

/-- Settles O47: the case split on zero and the powers of the base. -/
theorem tableProductIsReducedCarrylessProduct : Obligations.TableProductIsReducedCarrylessProduct :=
  gfMul_eq_clmulReduce

/-! ## The laws of the field (R75) -/

theorem gfMul_comm (a b : Byte) : gfMul tableContents a b = gfMul tableContents b a := by
  obtain rfl | ⟨i, rfl⟩ := eq_zero_or_alogAt a
  · rw [gfMul_zero_left, gfMul_zero_right]
  obtain rfl | ⟨j, rfl⟩ := eq_zero_or_alogAt b
  · rw [gfMul_zero_left, gfMul_zero_right]
  rw [gfMul_alogAt, gfMul_alogAt, add_comm]

theorem gfMul_one (a : Byte) : gfMul tableContents a 1 = a := (gfMul_comm a 1).trans (one_gfMul a)

theorem gfMul_assoc (a b c : Byte) :
    gfMul tableContents (gfMul tableContents a b) c = gfMul tableContents a (gfMul tableContents b c) := by
  obtain rfl | ⟨i, rfl⟩ := eq_zero_or_alogAt a
  · simp only [gfMul_zero_left]
  obtain rfl | ⟨j, rfl⟩ := eq_zero_or_alogAt b
  · simp only [gfMul_zero_left, gfMul_zero_right]
  obtain rfl | ⟨k, rfl⟩ := eq_zero_or_alogAt c
  · simp only [gfMul_zero_right]
  simp only [gfMul_alogAt, add_assoc]

theorem gfMul_gfAdd (a b c : Byte) :
    gfMul tableContents a (gfAdd b c) = gfAdd (gfMul tableContents a b) (gfMul tableContents a c) := by
  simp only [gfMul_eq_clmulReduce, gfAdd, clmulReduce_xor_right]

theorem gfQuo_zero_left (t : Tables) (b : Byte) : gfQuo t 0 b = 0 := if_pos rfl

theorem gfMul_gfQuo (a : Byte) {b : Byte} (hb : b ≠ 0) : gfMul tableContents (gfQuo tableContents a b) b = a := by
  obtain ⟨j, rfl⟩ := exists_alogAt_eq hb
  obtain rfl | ⟨i, rfl⟩ := eq_zero_or_alogAt a
  · rw [gfQuo_zero_left, gfMul_zero_left]
  · rw [gfQuo_alogAt, gfMul_alogAt, sub_add_cancel]

theorem gfQuo_self {a : Byte} (ha : a ≠ 0) : gfQuo tableContents a a = 1 := by
  obtain ⟨i, rfl⟩ := exists_alogAt_eq ha
  rw [gfQuo_alogAt, sub_self, one_eq_alogAt]

theorem gfQuo_one (a : Byte) : gfQuo tableContents a 1 = a := by
  rw [← gfMul_one (gfQuo tableContents a 1), gfMul_gfQuo a (by decide)]

/-! ## Powers (R65) -/

theorem gfPow_one (a : Byte) : gfPow tableContents a 1 = a := by rw [gfPow_succ, gfPow_zero, one_gfMul]

theorem gfPow_zero_left (t : Tables) {n : Nat} (hn : 1 ≤ n) : gfPow t 0 n = 0 := by
  obtain ⟨m, rfl⟩ := Nat.exists_eq_add_of_le' hn
  rw [gfPow_succ, gfMul_zero_right]

/-- A power of a power of the base multiplies the exponents mod 255. -/
theorem gfPow_alogAt (i : Fin 255) (n : Nat) :
    gfPow tableContents (tableContents.alogAt i) n = tableContents.alogAt (Fin.ofNat 255 (i.val * n)) := by
  induction n with
  | zero => exact one_eq_alogAt
  | succ n ih =>
    have hexponent : Fin.ofNat 255 (i.val * n) + i = Fin.ofNat 255 (i.val * (n + 1)) :=
      Fin.ext (by simp [Fin.val_add, Nat.mul_succ])
    rw [gfPow_succ, ih, gfMul_alogAt, hexponent]

theorem gfPow_of_ne_zero {a : Byte} (ha : a ≠ 0) (n : Nat) :
    gfPow tableContents a n = tableContents.alogAt (Fin.ofNat 255 (tableContents.logAt a * n)) := by
  obtain ⟨i, rfl⟩ := exists_alogAt_eq ha
  rw [gfPow_alogAt, logAt_alogAt]

/-- Settles O49: a power multiplies the logarithm. -/
theorem powerThroughTheTables : Obligations.PowerThroughTheTables :=
  ⟨fun a => ⟨gfPow_zero _ a, gfPow_one a⟩, fun _ hn => gfPow_zero_left _ hn, fun _ n ha => gfPow_of_ne_zero ha n⟩

theorem gfPow_255 {a : Byte} (ha : a ≠ 0) : gfPow tableContents a 255 = 1 := by
  have hcycle (k : Nat) : Fin.ofNat 255 (k * 255) = 0 := Fin.ext (by simp)
  rw [gfPow_of_ne_zero ha, hcycle, one_eq_alogAt]

theorem gfPow_two (n : Nat) : gfPow tableContents 2 n = tableContents.alogAt (Fin.ofNat 255 n) := by
  have htwo : (2 : Byte) = tableContents.alogAt 1 := by decide
  rw [htwo, gfPow_alogAt, Fin.val_one, Nat.one_mul]

/-- Settles O48: distributivity from the product without the tables, the other laws of the product from the sum of the
exponents. -/
theorem fieldLawsHold : Obligations.FieldLawsHold := by
  have hself (a : Byte) : gfAdd a a = 0 := BitVec.xor_self
  refine ⟨fun a => ⟨hself a, BitVec.xor_zero⟩, BitVec.xor_comm, fun a ha => ?_, fun a b => hself _,
    fun a => ⟨gfMul_zero_right _ a, gfMul_zero_left _ a, gfMul_one a⟩, gfMul_comm, gfMul_assoc, gfMul_gfAdd,
    fun a b hb => ?_, fun a ha => ?_, fun a => ?_, fun a => gfPow_255, gfPow_two⟩
  · exact ⟨_, gfDiv_of_ne_zero _ 1 ha, gfMul_gfQuo_one ha⟩
  · exact ⟨_, gfDiv_of_ne_zero _ a hb, gfMul_gfQuo a hb⟩
  · rw [gfDiv_of_ne_zero _ a ha, gfQuo_self ha]
  · rw [gfDiv_of_ne_zero _ a (by decide), gfQuo_one]

/-! ## The commands (R67 to R74) -/

section
variable {i : Instr} (op : Byte) {base : Nat} {d a b : SReg} {imm : Byte} (hbase : op.toNat * 2 ^ 24 = base)
include hbase

/-- The value of a word of the form SSS (R45, R46). -/
theorem encode_toNat_sss (h : encode i = pack op ⟨scalarSpec d, scalarSpec a, scalarSpec b, 0, 0⟩) :
    (encode i).toNat = base + d.val * 2 ^ 20 + a.val * 2 ^ 16 + b.val * 2 ^ 12 := by
  simp [h, pack_toNat, ← hbase]

/-- The value of a word of the form SSI. -/
theorem encode_toNat_ssi (h : encode i = pack op ⟨scalarSpec d, scalarSpec a, 0, 0, imm⟩) :
    (encode i).toNat = base + d.val * 2 ^ 20 + a.val * 2 ^ 16 + imm.toNat := by
  simp [h, pack_toNat, ← hbase]

/-- The value of a word of the form SS. -/
theorem encode_toNat_ss (h : encode i = pack op ⟨scalarSpec d, scalarSpec a, 0, 0, 0⟩) :
    (encode i).toNat = base + d.val * 2 ^ 20 + a.val * 2 ^ 16 := by
  simp [h, pack_toNat, ← hbase]

end

section
variable {i : Instr} {s : State}

/-- A command that ends with the write of one scalar register. -/
theorem exec_writes_scalar {d : SReg} {v : Byte} (h : exec i s = .next ((s.setS d v).respond 0)) :
    ∃ t, exec i s = .next t ∧ t.S d = v ∧ Succeeded [d] [] 0 s t :=
  ⟨_, h, State.S_setS_self s d v, succeeded_setS s d v⟩

theorem exec_fails {k : ErrorKind} (h : exec i s = .next (s.raise k)) : ∃ t, exec i s = .next t ∧ Failed k s t :=
  ⟨_, h, raise_failed s k⟩

end

/-- Settles O28: both commands end with one write. -/
theorem gfaddAndGfsubWriteTheExclusiveOr : Obligations.GfaddAndGfsubWriteTheExclusiveOr := fun _ _ _ _ =>
  ⟨encode_toNat_sss 0x10 (by decide) rfl, encode_toNat_sss 0x11 (by decide) rfl,
    exec_writes_scalar rfl, exec_writes_scalar rfl⟩

/-- Settles O29: the command ends with one write. -/
theorem gfmulWritesTheProduct : Obligations.GfmulWritesTheProduct := fun _ _ _ _ =>
  ⟨encode_toNat_sss 0x12 (by decide) rfl, exec_writes_scalar rfl⟩

/-- Settles O30: the divisor decides between the write and the error. -/
theorem gfdivWritesTheQuotientOrFails : Obligations.GfdivWritesTheQuotientOrFails := by
  intro d a b s
  refine ⟨encode_toNat_sss 0x13 (by decide) rfl, fun hb => ?_, fun hb => exec_fails (exec_gfdiv_of_eq_zero d a hb)⟩
  obtain ⟨t, hexec, hquo, hsucceeded⟩ := exec_gfdiv_of_ne_zero d a hb
  exact ⟨t, _, hexec, gfDiv_of_ne_zero _ _ hb, hquo, hsucceeded⟩

/-- Settles O31: both commands end with one write. -/
theorem gfpowAndGfpowiWriteThePower : Obligations.GfpowAndGfpowiWriteThePower := fun _ _ _ _ _ =>
  ⟨encode_toNat_sss 0x14 (by decide) rfl, encode_toNat_ssi 0x15 (by decide) rfl,
    exec_writes_scalar rfl, exec_writes_scalar rfl⟩

theorem exec_gflog_of_ne_zero (d : SReg) {a : SReg} {s : State} (ha : s.S a ≠ 0) :
    exec (.gflog d a) s = .next ((s.setS d (BitVec.ofNat 8 (s.tables.logAt (s.S a)))).respond 0) := by
  rw [exec, execGflog, if_neg ha, deliver_ok]

theorem exec_gflog_of_eq_zero (d : SReg) {a : SReg} {s : State} (ha : s.S a = 0) :
    exec (.gflog d a) s = .next (s.raise .domainError) := by
  rw [exec, execGflog, if_pos ha, deliver_error]

/-- Settles O32: the source decides between the write and the error, and an entry of LOG fits a register. -/
theorem gflogReadsTheLogTable : Obligations.GflogReadsTheLogTable := by
  intro d a s
  refine ⟨encode_toNat_ss 0x16 (by decide) rfl, fun ha => ?_, fun ha => exec_fails (exec_gflog_of_eq_zero d ha)⟩
  obtain ⟨t, hexec, hlog, hsucceeded⟩ := exec_writes_scalar (exec_gflog_of_ne_zero d ha)
  refine ⟨t, hexec, ?_, hsucceeded⟩
  rw [hlog, BitVec.toNat_ofNat, Nat.mod_eq_of_lt (logAt_lt _ _)]

theorem exec_gfalog_of_lt (d : SReg) {a : SReg} {s : State} {i : Fin 255} (ha : (s.S a).toNat = i.val) :
    exec (.gfalog d a) s = .next ((s.setS d (s.tables.alogAt i)).respond 0) := by
  have hne : s.S a ≠ 255 := fun h => i.isLt.ne' (by rw [← ha, h]; rfl)
  have hi : Fin.ofNat 255 i.val = i := Fin.ext (Nat.mod_eq_of_lt i.isLt)
  rw [exec, execGfalog, if_neg hne, ha, hi, deliver_ok]

theorem exec_gfalog_of_eq_255 (d : SReg) {a : SReg} {s : State} (ha : s.S a = 255) :
    exec (.gfalog d a) s = .next (s.raise .domainError) := by
  rw [exec, execGfalog, if_pos ha, deliver_error]

/-- Settles O33: the source decides between the write and the error. -/
theorem gfalogReadsTheAntilogTable : Obligations.GfalogReadsTheAntilogTable := fun d _ _ =>
  ⟨encode_toNat_ss 0x17 (by decide) rfl, fun _ ha => exec_writes_scalar (exec_gfalog_of_lt d ha),
    fun ha => exec_fails (exec_gfalog_of_eq_255 d ha)⟩

end Sys2Proof.Machine

/-! Polynomial arithmetic (R81 to R93). The sum pads to a common length and then adds coefficient by coefficient; the
product is the convolution; the division takes back what the product adds turn by turn; and evaluation respects all
three. -/

namespace Sys2Proof.Machine

/-! ## The sum aligns constant terms (R81) -/

theorem getD_reverse_padLeft (n : Nat) (p : Poly) (j : Nat) : (padLeft n p).reverse.getD j 0 = p.reverse.getD j 0 := by
  simp only [padLeft, zeros, List.reverse_append, List.reverse_replicate, List.getD_eq_getElem?_getD,
    List.getElem?_append]
  split
  · rfl
  · next h => rw [List.getElem?_eq_none (Nat.le_of_not_lt h), List.getElem?_replicate]; split <;> rfl

/-- Sequences of one length meet index by index. -/
theorem getD_zipWith_gfAdd {p q : Poly} (h : p.length = q.length) (j : Nat) :
    (List.zipWith gfAdd p q).getD j 0 = p.getD j 0 ^^^ q.getD j 0 := by
  obtain hj | hj := Nat.lt_or_ge j p.length
  · simp [List.getD_eq_getElem?_getD, gfAdd, hj, h ▸ hj]
  · simp [List.getD_eq_getElem?_getD, hj, h ▸ hj]

theorem getD_reverse_polyAdd (p q : Poly) (j : Nat) :
    (polyAdd p q).reverse.getD j 0 = p.reverse.getD j 0 ^^^ q.reverse.getD j 0 := by
  rw [polyAdd, List.reverse_zipWith (by simp), getD_zipWith_gfAdd (by simp), getD_reverse_padLeft,
    getD_reverse_padLeft]

/-- "Subtraction is the same" (R81). -/
theorem polySub_eq_polyAdd (p q : Poly) : polySub p q = polyAdd p q := rfl

/-- Settles O50: the padding puts zeros above the leading terms, and the padded sequences meet index by index. -/
theorem sumAlignsConstantTerms : Obligations.SumAlignsConstantTerms := fun p q =>
  ⟨length_polyAdd p q, getD_reverse_polyAdd p q, polySub_eq_polyAdd p q⟩

/-! ## Field sums -/

@[simp] theorem fieldSum_zero (f : Nat → Byte) : fieldSum 0 f = 0 := rfl

theorem fieldSum_succ (n : Nat) (f : Nat → Byte) : fieldSum (n + 1) f = fieldSum n f ^^^ f n := by
  simp [fieldSum, List.range_succ]

theorem fieldSum_succ_left (n : Nat) (f : Nat → Byte) :
    fieldSum (n + 1) f = f 0 ^^^ fieldSum n fun i => f (i + 1) := by
  induction n with
  | zero => rw [fieldSum_succ, fieldSum_zero, fieldSum_zero, BitVec.xor_comm]
  | succ n ih => rw [fieldSum_succ, ih, fieldSum_succ, BitVec.xor_assoc]

theorem fieldSum_eq_zero (n : Nat) {f : Nat → Byte} (h : ∀ i, f i = 0) : fieldSum n f = 0 := by
  induction n with
  | zero => rfl
  | succ n ih => rw [fieldSum_succ, ih, h]; rfl

/-! ## The product is the convolution (R82) -/

/-- `p[i] * q[k - i]`, or 0 where q has no such coefficient: the summand i of coefficient k of the product. -/
def convolutionTerm (t : Tables) (p q : Poly) (k i : Nat) : Byte :=
  if i ≤ k ∧ k - i < q.length then gfMul t (p.getD i 0) (q.getD (k - i) 0) else 0

theorem getD_scale (t : Tables) (c : Byte) (q : Poly) (k : Nat) : (scale t c q).getD k 0 = gfMul t c (q.getD k 0) := by
  rw [scale, ← gfMul_zero_right t c, List.getD_map, gfMul_zero_right]

section
variable (t : Tables) (c : Byte) (p q : Poly)

theorem convolutionTerm_cons_succ (k i : Nat) :
    convolutionTerm t (c :: p) q (k + 1) (i + 1) = convolutionTerm t p q k i := by
  simp [convolutionTerm]

theorem convolutionTerm_of_lt {k i : Nat} (h : k < i) : convolutionTerm t p q k i = 0 :=
  if_neg fun hle => absurd hle.1 (Nat.not_le_of_lt h)

/-- The turn for the leading coefficient c adds its products to what the other turns leave one index further right. -/
theorem getD_mulTurns_cons (k : Nat) (hq : q ≠ []) (hk : k < p.length + q.length) :
    (mulTurns t (c :: p) q).getD k 0 =
      convolutionTerm t (c :: p) q k 0 ^^^ (0 :: mulTurns t p q).getD k 0 := by
  have hlen : k < (0 :: mulTurns t p q).length := by
    have := List.length_pos_iff.mpr hq
    rw [List.length_cons, length_mulTurns t p hq]
    omega
  rw [mulTurns, List.getD_eq_getElem?_getD, getElem?_xorAtFront, List.getD_eq_getElem _ _ hlen,
    List.getElem?_eq_getElem hlen, length_scale, getD_scale, convolutionTerm]
  by_cases hkq : k < q.length
  · simp [hkq, BitVec.xor_comm]
  · simp [hkq]

/-- Coefficient k of the loop's result, turn by turn. -/
theorem getD_mulTurns (hq : q ≠ []) {k : Nat} (hk : k < p.length + q.length - 1) :
    (mulTurns t p q).getD k 0 = fieldSum p.length (convolutionTerm t p q k) := by
  induction p generalizing k with
  | nil => simp [mulTurns, zeros, List.getD_eq_getElem?_getD, List.getElem?_replicate]; split <;> rfl
  | cons c p ih =>
    rw [List.length_cons] at hk ⊢
    rw [getD_mulTurns_cons t c p q k hq (by omega), fieldSum_succ_left]
    cases k with
    | zero => rw [fieldSum_eq_zero _ fun i => convolutionTerm_of_lt t _ q (Nat.succ_pos i)]; rfl
    | succ k =>
      simp only [convolutionTerm_cons_succ, List.getD_cons_succ]
      rw [ih (by omega)]

end

/-- Settles O51: by induction on the first operand, one turn of the outer loop at a time. -/
theorem productIsTheConvolution : Obligations.ProductIsTheConvolution := by
  intro t p q
  refine ⟨fun h => if_pos (by simpa using h), fun hp hq => ?_⟩
  rw [polyMul_of_ne_nil t hp hq]
  have hlen := length_mulTurns t p hq
  refine ⟨hlen, fun k hk => ?_⟩
  rw [List.getElem?_eq_getElem (hlen ▸ hk), ← List.getD_eq_getElem _ 0 (hlen ▸ hk), getD_mulTurns t p q hq hk]
  rfl

/-! ## One turn of the division (R83) -/

/-- The factor of a turn: the quotient of the leading terms. -/
def divFactor (t : Tables) (d w : Poly) : Byte := gfQuo t (w.headD 0) (d.headD 0)

/-- The running dividend after a turn. -/
def divRest (t : Tables) (d w : Poly) : Poly := (xorAtFront w (scale t (divFactor t d w) d)).tail

@[simp] theorem length_divRest (t : Tables) (d w : Poly) : (divRest t d w).length = w.length - 1 := by simp [divRest]

theorem divTurns_of_lt (t : Tables) {d w : Poly} (n : Nat) (h : w.length < d.length) : divTurns t d n w = ([], w) := by
  cases n with
  | zero => rfl
  | succ n => rw [divTurns, if_pos h]

theorem divTurns_succ_of_le (t : Tables) {d w : Poly} (n : Nat) (h : d.length ≤ w.length) :
    divTurns t d (n + 1) w =
      (divFactor t d w :: (divTurns t d n (divRest t d w)).1, (divTurns t d n (divRest t d w)).2) := by
  rw [divTurns, if_neg (Nat.not_lt.mpr h)]
  rfl

/-! ## Lengths of quotient and remainder (R83) -/

/-- With as many turns as the dividend has coefficients, the loop ends with less than the divisor's length. -/
theorem length_divTurns (t : Tables) {d w : Poly} {n : Nat} (hd : d ≠ []) (hn : w.length ≤ n) :
    (divTurns t d n w).1.length = w.length + 1 - d.length ∧
      (divTurns t d n w).2.length = min w.length (d.length - 1) := by
  have hpos := List.length_pos_iff.mpr hd
  induction n generalizing w with
  | zero =>
    rw [divTurns_of_lt t 0 (by omega)]
    simp; omega
  | succ n ih =>
    obtain h | h := Nat.lt_or_ge w.length d.length
    · rw [divTurns_of_lt t _ h]
      simp; omega
    · obtain ⟨hquo, hrem⟩ := ih (w := divRest t d w) (by rw [length_divRest]; omega)
      rw [length_divRest] at hquo hrem
      rw [divTurns_succ_of_le t n h, List.length_cons, hquo, hrem]
      omega

theorem polyDivrem_of_eq_cons (t : Tables) (p : Poly) {c : Byte} (ds : Poly) (hc : c ≠ 0) :
    polyDivrem t p (c :: ds) = .ok (divTurns t (c :: ds) p.length p) := by
  obtain ⟨h, -⟩ | ⟨-, -, h⟩ := polyDivrem_cases t p (c :: ds)
  · exact absurd h (not_or.mpr ⟨List.cons_ne_nil c ds, hc⟩)
  · exact h

theorem polyDivrem_eq_error (t : Tables) (p : Poly) {d : Poly} (h : d = [] ∨ d[0]? = some 0) :
    polyDivrem t p d = .error .divisionByZero := by
  cases d with
  | nil => rfl
  | cons c ds =>
    obtain rfl : c = 0 := by simpa using h
    rfl

/-- Settles O52: the error by the model's test, the lengths by induction on the turns. -/
theorem divisionHasItsLengths : Obligations.DivisionHasItsLengths := by
  intro t p d
  refine ⟨polyDivrem_eq_error t p, ?_⟩
  rintro c ds rfl hc
  refine ⟨_, _, polyDivrem_of_eq_cons t p ds hc, fun hle => ?_, fun hlt => ?_⟩
  · obtain ⟨hquo, hrem⟩ := length_divTurns t (List.cons_ne_nil c ds) (Nat.le_refl p.length)
    omega
  · rw [divTurns_of_lt t _ hlt]
    exact ⟨rfl, rfl⟩

/-! ## Multiply and add undo the division (R93) -/

/-- The shorter operand is padded to the longer one. -/
theorem polyAdd_of_length_le {p q : Poly} (h : q.length ≤ p.length) :
    polyAdd p q = List.zipWith gfAdd p (padLeft p.length q) := by
  rw [polyAdd, Nat.max_eq_left h, padLeft_of_le (Nat.le_refl _)]

theorem xorAtFront_xorAtFront_self (w v : Poly) : xorAtFront (xorAtFront w v) v = w := by
  fun_induction xorAtFront w v with
  | case1 w => exact xorAtFront_nil w
  | case2 => rfl
  | case3 x w y v ih => rw [xorAtFront, ih, BitVec.xor_assoc, BitVec.xor_self, BitVec.xor_zero]

theorem zipWith_xorAtFront (u v z : Poly) :
    List.zipWith gfAdd (xorAtFront u v) z = xorAtFront (List.zipWith gfAdd u z) v := by
  fun_induction xorAtFront u v generalizing z with
  | case1 u => rw [xorAtFront_nil]
  | case2 => rfl
  | case3 x u y v ih =>
    cases z with
    | nil => rfl
    | cons a z =>
      simp only [List.zipWith_cons_cons, xorAtFront, ih, gfAdd]
      ac_rfl

theorem padLeft_succ_of_le {n : Nat} {p : Poly} (h : p.length ≤ n) : padLeft (n + 1) p = 0 :: padLeft n p := by
  rw [padLeft, Nat.succ_sub h, zeros, List.replicate_succ]
  rfl

/-- A summand no longer than p passes the subtraction aligned at the leading term, one degree above p. -/
theorem polyAdd_xorAtFront_cons {p q : Poly} (v : Poly) (h : q.length ≤ p.length) :
    polyAdd (xorAtFront (0 :: p) v) q = xorAtFront (0 :: polyAdd p q) v := by
  rw [polyAdd_of_length_le (by simp; omega), length_xorAtFront, zipWith_xorAtFront, List.length_cons,
    padLeft_succ_of_le h, polyAdd_of_length_le h]
  rfl

/-- The factor cancels the leading term (R83). -/
theorem xorAtFront_divFactor {c : Byte} {ds w : Poly} (hc : c ≠ 0) (hw : w ≠ []) :
    xorAtFront w (scale tableContents (divFactor tableContents (c :: ds) w) (c :: ds)) =
      0 :: divRest tableContents (c :: ds) w := by
  obtain ⟨x, w, rfl⟩ := List.exists_cons_of_ne_nil hw
  have hlead : x ^^^ gfMul tableContents (divFactor tableContents (c :: ds) (x :: w)) c = 0 := by
    rw [divFactor, List.headD_cons, List.headD_cons, gfMul_gfQuo x hc, BitVec.xor_self]
    rfl
  rw [divRest, scale, List.map_cons, xorAtFront, hlead, List.tail_cons]

theorem zipWith_zeros (p : Poly) : List.zipWith gfAdd (zeros p.length) p = p :=
  List.ext_getElem (by simp) fun i _ _ => by simp [zeros, gfAdd]

theorem padLeft_zeros {n m : Nat} (h : n ≤ m) : padLeft m (zeros n) = zeros m := by
  rw [padLeft, length_zeros, zeros, zeros, List.replicate_append_replicate, Nat.sub_add_cancel h, zeros]

theorem padLeft_max_length (n : Nat) (p : Poly) : padLeft (max n p.length) p = padLeft n p := by
  have hn : max n p.length - p.length = n - p.length := by omega
  rw [padLeft, padLeft, hn]

/-- Zeros add nothing but their number. -/
theorem polyAdd_zeros (n : Nat) (p : Poly) : polyAdd (zeros n) p = padLeft n p := by
  have h := zipWith_zeros (padLeft n p)
  rw [length_padLeft] at h
  rw [polyAdd, length_zeros, padLeft_zeros (Nat.le_max_left ..), padLeft_max_length, h]

/-- A turn of the product adds at the leading term, above a summand that the other turns' length covers. -/
theorem polyAdd_mulTurns_cons (t : Tables) (f : Byte) (q : Poly) {d r : Poly} (hd : d ≠ [])
    (h : r.length ≤ q.length + d.length - 1) :
    polyAdd (mulTurns t (f :: q) d) r = xorAtFront (0 :: polyAdd (mulTurns t q d) r) (scale t f d) :=
  polyAdd_xorAtFront_cons _ (h.trans_eq (length_mulTurns t q hd).symm)

/-- The turns of the product over the quotient add back what the turns of the division took away; a dividend shorter
than the products gets their length. -/
theorem polyAdd_mulTurns_divTurns {c : Byte} (ds : Poly) (hc : c ≠ 0) {n : Nat} {w : Poly} (hn : w.length ≤ n) :
    polyAdd (mulTurns tableContents (divTurns tableContents (c :: ds) n w).1 (c :: ds))
      (divTurns tableContents (c :: ds) n w).2 = padLeft ds.length w := by
  have hd : c :: ds ≠ [] := List.cons_ne_nil c ds
  have hdlen : (c :: ds).length = ds.length + 1 := List.length_cons
  induction n generalizing w with
  | zero => exact polyAdd_zeros ds.length w
  | succ n ih =>
    obtain h | h := Nat.lt_or_ge w.length (c :: ds).length
    · rw [divTurns_of_lt _ _ h]
      exact polyAdd_zeros ds.length w
    · have hne : w ≠ [] := List.length_pos_iff.mp (by omega)
      have hrest := length_divRest tableContents (c :: ds) w
      obtain ⟨hquo, hrem⟩ := length_divTurns tableContents hd (hrest.trans_le (by omega : w.length - 1 ≤ n))
      simp only [divTurns_succ_of_le _ _ h]
      rw [polyAdd_mulTurns_cons _ _ _ hd (by omega), ih (by omega),
        padLeft_of_le (by omega), padLeft_of_le (by omega), ← xorAtFront_divFactor hc hne,
        xorAtFront_xorAtFront_self]

/-- "`poly_add(poly_mul(q, d), r)` = p, as exact sequence equality" (R93). -/
theorem polyAdd_polyMul_divTurns {c : Byte} (ds : Poly) (hc : c ≠ 0) (p : Poly) :
    polyAdd (polyMul tableContents (divTurns tableContents (c :: ds) p.length p).1 (c :: ds))
      (divTurns tableContents (c :: ds) p.length p).2 = p := by
  have hd : c :: ds ≠ [] := List.cons_ne_nil c ds
  obtain h | h := Nat.lt_or_ge p.length (c :: ds).length
  · rw [divTurns_of_lt _ _ h]
    exact (polyAdd_zeros 0 p).trans (padLeft_of_le (Nat.zero_le _))
  · have hquo := (length_divTurns tableContents hd (Nat.le_refl p.length)).1
    rw [polyMul_of_ne_nil _ (List.length_pos_iff.mp (by omega)) hd, polyAdd_mulTurns_divTurns ds hc (Nat.le_refl _),
      padLeft_of_le (Nat.le_of_succ_le h)]

/-! ## Evaluation (R85) -/

@[simp] theorem polyEval_nil (t : Tables) (x : Byte) : polyEval t [] x = 0 := rfl

theorem polyEval_append_singleton (t : Tables) (p : Poly) (c x : Byte) :
    polyEval t (p ++ [c]) x = gfMul t (polyEval t p x) x ^^^ c := List.foldl_append ..

/-- "Leading zeros do not change it" (R85). -/
theorem polyEval_zero_cons (t : Tables) (p : Poly) (x : Byte) : polyEval t (0 :: p) x = polyEval t p x := by
  rw [polyEval, List.foldl_cons, gfMul_zero_left, BitVec.xor_self]
  rfl

theorem gfMul_xor (a b c : Byte) :
    gfMul tableContents a (b ^^^ c) = gfMul tableContents a b ^^^ gfMul tableContents a c := gfMul_gfAdd a b c

theorem xor_gfMul (a b c : Byte) :
    gfMul tableContents (a ^^^ b) c = gfMul tableContents a c ^^^ gfMul tableContents b c := by
  simp only [gfMul_comm _ c, gfMul_xor]

theorem gfPow_add (x : Byte) (m n : Nat) :
    gfPow tableContents x (m + n) = gfMul tableContents (gfPow tableContents x m) (gfPow tableContents x n) := by
  induction n with
  | zero => exact (gfMul_one _).symm
  | succ n ih => rw [← Nat.add_assoc, gfPow_succ, ih, gfPow_succ, gfMul_assoc]

/-- The leading term of an evaluation. -/
theorem polyEval_cons (c : Byte) (p : Poly) (x : Byte) :
    polyEval tableContents (c :: p) x =
      gfMul tableContents c (gfPow tableContents x p.length) ^^^ polyEval tableContents p x := by
  induction p using List.reverseRecOn with
  | nil =>
    change gfMul tableContents 0 x ^^^ c = gfMul tableContents c 1 ^^^ 0
    rw [gfMul_zero_left, gfMul_one, BitVec.xor_comm]
  | append_singleton p b ih =>
    rw [← List.cons_append, polyEval_append_singleton, ih, polyEval_append_singleton, xor_gfMul, gfMul_assoc,
      ← gfPow_succ, List.length_append, List.length_singleton, BitVec.xor_assoc]

theorem polyEval_eq_fieldSum (p : Poly) (x : Byte) :
    polyEval tableContents p x = fieldSum p.length fun j =>
      gfMul tableContents (p.getD j 0) (gfPow tableContents x (p.length - 1 - j)) := by
  induction p with
  | nil => rfl
  | cons c p ih =>
    rw [polyEval_cons, ih, List.length_cons, fieldSum_succ_left]
    simp [Nat.sub_sub, Nat.add_comm 1]

theorem gfPow_one_left (n : Nat) : gfPow tableContents 1 n = 1 := by
  induction n with
  | zero => rfl
  | succ n ih => rw [gfPow_succ, ih, gfMul_one]

/-- Settles O54: by induction on the sequence from its leading term; at 1 every power is 1. -/
theorem evaluationIsTheSumOfPowers : Obligations.EvaluationIsTheSumOfPowers := by
  refine ⟨polyEval_eq_fieldSum, polyEval_nil tableContents, fun p c => ?_, fun p => ?_,
    polyEval_zero_cons tableContents⟩
  · rw [polyEval_append_singleton, gfMul_zero_right]
    exact BitVec.zero_xor
  · simp only [polyEval_eq_fieldSum, gfPow_one_left, gfMul_one]

/-! ## Evaluation of sums and products (R93) -/

theorem polyEval_zeros_append (t : Tables) (n : Nat) (p : Poly) (x : Byte) :
    polyEval t (zeros n ++ p) x = polyEval t p x := by
  induction n with
  | zero => rfl
  | succ n ih => exact (polyEval_zero_cons t _ x).trans ih

theorem polyEval_zeros (t : Tables) (n : Nat) (x : Byte) : polyEval t (zeros n) x = 0 := by
  rw [← List.append_nil (zeros n), polyEval_zeros_append, polyEval_nil]

theorem polyEval_padLeft (t : Tables) (n : Nat) (p : Poly) (x : Byte) :
    polyEval t (padLeft n p) x = polyEval t p x := polyEval_zeros_append ..

theorem polyEval_scale (c : Byte) (p : Poly) (x : Byte) :
    polyEval tableContents (scale tableContents c p) x = gfMul tableContents c (polyEval tableContents p x) := by
  induction p with
  | nil => exact (gfMul_zero_right ..).symm
  | cons a p ih =>
    have hscale : scale tableContents c (a :: p) = gfMul tableContents c a :: scale tableContents c p := rfl
    rw [hscale, polyEval_cons, ih, length_scale, polyEval_cons, gfMul_xor, gfMul_assoc]

/-- A summand aligned n degrees above the constant term counts with the power n of the point. -/
theorem polyEval_xorAtFront {w v : Poly} {n : Nat} (h : w.length = v.length + n) (x : Byte) :
    polyEval tableContents (xorAtFront w v) x = polyEval tableContents w x ^^^
      gfMul tableContents (polyEval tableContents v x) (gfPow tableContents x n) := by
  fun_induction xorAtFront w v with
  | case1 w =>
    rw [polyEval_nil, gfMul_zero_left]
    exact BitVec.xor_zero.symm
  | case2 =>
    rw [List.length_nil, List.length_cons] at h
    omega
  | case3 a w b v ih =>
    have h : w.length = v.length + n := by simpa [Nat.add_right_comm] using h
    rw [polyEval_cons, ih h, length_xorAtFront, polyEval_cons, polyEval_cons, h, xor_gfMul, xor_gfMul, gfPow_add,
      gfMul_assoc]
    ac_rfl

theorem zipWith_eq_xorAtFront {p q : Poly} (h : p.length = q.length) : List.zipWith gfAdd p q = xorAtFront p q := by
  fun_induction xorAtFront p q with
  | case1 p => rw [List.zipWith_nil_right, List.length_eq_zero_iff.mp h]
  | case2 => rfl
  | case3 a p b q ih => rw [List.zipWith_cons_cons, ih (Nat.succ.inj h), gfAdd]

theorem polyEval_polyAdd (p q : Poly) (x : Byte) :
    polyEval tableContents (polyAdd p q) x = polyEval tableContents p x ^^^ polyEval tableContents q x := by
  rw [polyAdd, zipWith_eq_xorAtFront (by simp), polyEval_xorAtFront (n := 0) (by simp), gfPow_zero, gfMul_one,
    polyEval_padLeft, polyEval_padLeft]

theorem polyEval_mulTurns (p : Poly) {q : Poly} (hq : q ≠ []) (x : Byte) :
    polyEval tableContents (mulTurns tableContents p q) x =
      gfMul tableContents (polyEval tableContents p x) (polyEval tableContents q x) := by
  induction p with
  | nil => rw [mulTurns, polyEval_zeros, polyEval_nil, gfMul_zero_left]
  | cons c p ih =>
    have hlen : (0 :: mulTurns tableContents p q).length = (scale tableContents c q).length + p.length := by
      have := List.length_pos_iff.mpr hq
      rw [List.length_cons, length_mulTurns _ _ hq, length_scale]
      omega
    rw [mulTurns, polyEval_xorAtFront hlen, polyEval_zero_cons, ih, polyEval_scale, polyEval_cons, xor_gfMul,
      gfMul_assoc, gfMul_comm (polyEval tableContents q x), ← gfMul_assoc, BitVec.xor_comm]

/-- Evaluation respects the product; an empty operand counts as 0. -/
theorem polyEval_polyMul (p q : Poly) (x : Byte) :
    polyEval tableContents (polyMul tableContents p q) x =
      gfMul tableContents (polyEval tableContents p x) (polyEval tableContents q x) := by
  obtain rfl | hp := eq_or_ne p []
  · exact (gfMul_zero_left ..).symm
  obtain rfl | hq := eq_or_ne q []
  · rw [polyEval_nil, gfMul_zero_right, polyMul, if_pos (.inr rfl), polyEval_nil]
  · rw [polyMul_of_ne_nil _ hp hq, polyEval_mulTurns p hq]

/-- Settles O53: the sum over product and remainder is the dividend, and evaluation respects both. -/
theorem divisionRoundTrip : Obligations.DivisionRoundTrip := by
  rintro p _ c ds rfl hc
  have hsum := polyAdd_polyMul_divTurns ds hc p
  have hrem := (length_divTurns tableContents (List.cons_ne_nil c ds) (Nat.le_refl p.length)).2
  refine ⟨_, _, polyDivrem_of_eq_cons tableContents p ds hc, hsum, ?_, fun x hroot => ?_⟩
  · rw [hrem, List.length_cons]
    omega
  · have h := polyEval_polyAdd (polyMul tableContents (divTurns tableContents (c :: ds) p.length p).1 (c :: ds))
      (divTurns tableContents (c :: ds) p.length p).2 x
    rw [hsum, polyEval_polyMul, hroot, gfMul_zero_right] at h
    exact h.trans BitVec.zero_xor

/-! ## The commands (R86 to R92) -/

section
variable {i : Instr} (op : Byte) {base : Nat} {d a b e : PReg} {sd sx : SReg} (hbase : op.toNat * 2 ^ 24 = base)
include hbase

/-- The value of a word of the form PA (R45, R46). -/
theorem encode_toNat_pa (h : encode i = pack op ⟨0, polySpec a, 0, 0, 0⟩) :
    (encode i).toNat = base + a.val * 2 ^ 16 := by
  simp [h, pack_toNat, ← hbase]

/-- The value of a word of the form PPP. -/
theorem encode_toNat_ppp (h : encode i = pack op ⟨polySpec d, polySpec a, polySpec b, 0, 0⟩) :
    (encode i).toNat = base + d.val * 2 ^ 20 + a.val * 2 ^ 16 + b.val * 2 ^ 12 := by
  simp [h, pack_toNat, ← hbase]

/-- The value of a word of the form PPPP. -/
theorem encode_toNat_pppp (h : encode i = pack op ⟨polySpec d, polySpec a, polySpec b, polySpec e, 0⟩) :
    (encode i).toNat = base + d.val * 2 ^ 20 + a.val * 2 ^ 16 + b.val * 2 ^ 12 + e.val * 2 ^ 8 := by
  simp [h, pack_toNat, ← hbase]

/-- The value of a word of the form SPS. -/
theorem encode_toNat_sps (h : encode i = pack op ⟨scalarSpec sd, polySpec a, scalarSpec sx, 0, 0⟩) :
    (encode i).toNat = base + sd.val * 2 ^ 20 + a.val * 2 ^ 16 + sx.val * 2 ^ 12 := by
  simp [h, pack_toNat, ← hbase]

end

/-- A command that ends with the write of one polynomial register. -/
theorem exec_writes_poly {i : Instr} {s : State} {d : PReg} {p : Poly} (h : exec i s = .next ((s.setP d p).respond 0)) :
    ∃ t, exec i s = .next t ∧ t.P d = p ∧ Succeeded [] [d] 0 s t :=
  ⟨_, h, State.P_setP_self s d p, succeeded_setP s d p⟩

theorem lengthWord_toNat {p : Poly} (h : p.length < 2 ^ 16) : (lengthWord p).toNat = p.length := by
  rw [lengthWord, BitVec.toNat_ofNat, Nat.mod_eq_of_lt h]

theorem degreeWord_toInt {p : Poly} (h : p.length ≤ 2 ^ 15) : (degreeWord p).toInt = (p.length : Int) - 1 := by
  rw [degreeWord, BitVec.toInt_ofInt, Int.bmod_def]
  split <;> omega

/-- Settles O38: both commands write nothing, and the length fits the data field. -/
theorem plenAndPdegReturnLengthAndDegree : Obligations.PlenAndPdegReturnLengthAndDegree := by
  intro a s hfit
  have hlen : (s.P a).length ≤ 255 := (hfit a).trans s.lmax.property.2
  refine ⟨encode_toNat_pa 0x25 (by decide) rfl, encode_toNat_pa 0x26 (by decide) rfl,
    ⟨_, _, rfl, succeeded_respond s _, lengthWord_toNat (by omega)⟩,
    ⟨_, _, rfl, succeeded_respond s _, degreeWord_toInt (by omega), fun hnil => ?_⟩⟩
  rw [hnil]
  rfl

/-- A command that writes the sum of two polynomial registers. -/
theorem exec_writes_sum {i : Instr} {s : State} {d a b : PReg}
    (h : exec i s = .next ((s.setP d (polyAdd (s.P a) (s.P b))).respond 0)) :
    ∃ t, exec i s = .next t ∧ t.P d = polyAdd (s.P a) (s.P b) ∧
      (t.P d).length = max (s.P a).length (s.P b).length ∧ (FitsCapacity s → (t.P d).length ≤ s.lmax.val) ∧
      Succeeded [] [d] 0 s t := by
  obtain ⟨t, hexec, hsum, hsucceeded⟩ := exec_writes_poly h
  have hlen := (congrArg List.length hsum).trans (length_polyAdd _ _)
  exact ⟨t, hexec, hsum, hlen, fun hfit => hlen.trans_le (max_length_le hfit a b), hsucceeded⟩

/-- Settles O39: both commands end with the write of the sum. -/
theorem paddAndPsubWriteTheSum : Obligations.PaddAndPsubWriteTheSum := fun _ _ _ _ =>
  ⟨encode_toNat_ppp 0x28 (by decide) rfl, encode_toNat_ppp 0x29 (by decide) rfl,
    exec_writes_sum rfl, exec_writes_sum rfl⟩

section
variable (d : PReg) {a b : PReg} {s : State}

theorem exec_pmul_of_fits (h : s.P a = [] ∨ s.P b = [] ∨ (s.P a).length + (s.P b).length ≤ s.lmax.val + 1) :
    exec (.pmul d a b) s = .next ((s.setP d (polyMul s.tables (s.P a) (s.P b))).respond 0) := by
  simp only [← List.length_eq_zero_iff] at h
  simp only [exec, execPmul]
  rw [if_neg (by omega), deliver_ok]

theorem exec_pmul_of_overflow
    (h : s.P a ≠ [] ∧ s.P b ≠ [] ∧ s.lmax.val + 1 < (s.P a).length + (s.P b).length) :
    exec (.pmul d a b) s = .next (s.raise .lengthOverflow) := by
  simp only [← List.length_pos_iff] at h
  simp only [exec, execPmul]
  rw [if_pos (by omega), deliver_error]

end

/-- Settles O40: the lengths decide between the write and the error. -/
theorem pmulWritesTheProductOrOverflows : Obligations.PmulWritesTheProductOrOverflows := fun d _ _ _ =>
  ⟨encode_toNat_ppp 0x2A (by decide) rfl, fun h => exec_writes_poly (exec_pmul_of_fits d h),
    fun h => exec_fails (exec_pmul_of_overflow d h)⟩

section
variable {q r : PReg} (a b : PReg) (s : State)

theorem exec_pdivr_of_eq (h : q = r) : exec (.pdivr q r a b) s = .next (s.raise .illegalCommand) := by
  rw [exec, execPdivr, if_pos h, deliver_error]

theorem exec_pdivr_of_ne (h : q ≠ r) : exec (.pdivr q r a b) s =
    deliver s ((polyDivrem s.tables (s.P a) (s.P b)).map fun qr => ((s.setP q qr.1).setP r qr.2, 0)) := by
  rw [exec, execPdivr, if_neg h]

end

/-- Settles O41: the destinations are tested first, then the divisor decides between the two writes and the error. -/
theorem pdivrWritesQuotientAndRemainderOrFails : Obligations.PdivrWritesQuotientAndRemainderOrFails := by
  intro q r a b s
  refine ⟨encode_toNat_pppp 0x2B (by decide) rfl, fun hqr => exec_fails (exec_pdivr_of_eq a b s hqr),
    fun hqr hzero => exec_fails ?_, fun c rest hqr hdivisor hc => ?_⟩
  · rw [exec_pdivr_of_ne a b s hqr, polyDivrem_eq_error _ _ hzero]
    rfl
  · have hdiv := polyDivrem_of_eq_cons s.tables (s.P a) rest hc
    rw [← hdivisor] at hdiv
    rw [exec_pdivr_of_ne a b s hqr, hdiv]
    exact ⟨_, _, _, rfl, rfl, (State.P_setP_ne _ r _ q hqr).trans (State.P_setP_self s q _), State.P_setP_self _ r _,
      succeeded_setP_setP s q r _ _⟩

/-- Settles O42: the command ends with one write. -/
theorem pevalWritesTheValue : Obligations.PevalWritesTheValue := fun _ _ _ _ =>
  ⟨encode_toNat_sps 0x2C (by decide) rfl, exec_writes_scalar rfl⟩

end Sys2Proof.Machine

/-! The generator polynomial (R100 to R102). Multiplying by a factor [1, α^n] keeps the leading coefficient 1, and
evaluation respects the product: so the roots are those of the factors, and the constant term is the value at 0. -/

namespace Sys2Proof.Machine

/-! ## Leading coefficient (R102) -/

/-- The leading coefficient of a product is the product of the leading coefficients. -/
theorem polyMul_cons_cons (t : Tables) (c b : Byte) (p q : Poly) :
    polyMul t (c :: p) (b :: q) = gfMul t c b :: xorAtFront (mulTurns t p (b :: q)) (scale t c q) := by
  rw [polyMul_of_ne_nil t (List.cons_ne_nil c p) (List.cons_ne_nil b q)]
  exact congrArg (· :: _) BitVec.zero_xor

/-- The generator is a legal divisor: its leading coefficient is 1. -/
theorem exists_genPoly_eq_one_cons (n : Nat) : ∃ ds, genPoly tableContents n = 1 :: ds := by
  induction n with
  | zero => exact ⟨[], rfl⟩
  | succ n ih =>
    obtain ⟨ds, hds⟩ := ih
    rw [genPoly_succ, hds, polyMul_cons_cons, one_gfMul]
    exact ⟨_, rfl⟩

/-! ## Values and roots (R102) -/

/-- The value of the factor [1, c]. -/
theorem polyEval_factor (c x : Byte) : polyEval tableContents [1, c] x = x ^^^ c := by
  have hone : polyEval tableContents [1] x = 1 := by simp [polyEval, gfMul]
  exact (polyEval_append_singleton tableContents [1] c x).trans (by rw [hone, one_gfMul])

theorem polyEval_genPoly_succ (n : Nat) (x : Byte) :
    polyEval tableContents (genPoly tableContents (n + 1)) x =
      gfMul tableContents (polyEval tableContents (genPoly tableContents n) x) (x ^^^ gfPow tableContents 2 n) := by
  rw [genPoly_succ, polyEval_polyMul, polyEval_factor, Config.alpha]

/-- Each factor brings its root. -/
theorem polyEval_genPoly_eq_zero {n i : Nat} (h : i < n) :
    polyEval tableContents (genPoly tableContents n) (gfPow tableContents 2 i) = 0 := by
  induction n with
  | zero => exact absurd h (Nat.not_lt_zero i)
  | succ n ih =>
    rw [polyEval_genPoly_succ]
    obtain hlt | rfl := Nat.lt_succ_iff_lt_or_eq.mp h
    · rw [ih hlt, gfMul_zero_left]
    · rw [BitVec.xor_self]
      exact gfMul_zero_right ..

/-! ## Constant term (R102) -/

/-- The value at 0 is the last coefficient. -/
theorem getLast?_eq_polyEval_zero (t : Tables) {p : Poly} (hp : p ≠ []) : p.getLast? = some (polyEval t p 0) := by
  obtain ⟨p, c, rfl⟩ := (List.eq_nil_or_concat' p).resolve_left hp
  rw [polyEval_append_singleton, gfMul_zero_right, List.getLast?_concat]
  exact congrArg some BitVec.zero_xor.symm

/-- At 0 the factors multiply to the power with exponent 0 + 1 + .. + (n-1). -/
theorem polyEval_genPoly_zero (n : Nat) :
    polyEval tableContents (genPoly tableContents n) 0 =
      tableContents.alogAt (Fin.ofNat 255 (n * (n - 1) / 2)) := by
  induction n with
  | zero => exact one_eq_alogAt
  | succ n ih =>
    have hexponent : Fin.ofNat 255 (n * (n - 1) / 2) + Fin.ofNat 255 n =
        Fin.ofNat 255 ((n + 1) * (n + 1 - 1) / 2) := by
      rw [Nat.triangle_succ]
      exact Fin.ext (Nat.add_mod ..).symm
    have hfactor : 0 ^^^ gfPow tableContents 2 n = gfPow tableContents 2 n := BitVec.zero_xor
    rw [polyEval_genPoly_succ, ih, hfactor, gfPow_two, gfMul_alogAt, hexponent]

theorem getElem?_genPoly_last (n : Nat) :
    (genPoly tableContents n)[n]? = some (tableContents.alogAt (Fin.ofNat 255 (n * (n - 1) / 2))) := by
  have hlen := length_genPoly tableContents n
  have hne : genPoly tableContents n ≠ [] := List.length_pos_iff.mp (by omega)
  rw [← polyEval_genPoly_zero, ← getLast?_eq_polyEval_zero _ hne, List.getLast?_eq_getElem?, hlen, Nat.add_sub_cancel]

/-- Settles O55: by induction on the degree, one factor at a time. -/
theorem generatorHasItsRoots : Obligations.GeneratorHasItsRoots := by
  intro n _
  obtain ⟨ds, hds⟩ := exists_genPoly_eq_one_cons n
  exact ⟨length_genPoly tableContents n, by rw [hds]; rfl, fun _ => polyEval_genPoly_eq_zero, getElem?_genPoly_last n⟩

/-! ## The command (R101) -/

/-- The value of a word of the form PDI (R45, R46). -/
theorem encode_toNat_pdi {i : Instr} (op : Byte) {base : Nat} {d : PReg} {imm : Byte}
    (hbase : op.toNat * 2 ^ 24 = base) (h : encode i = pack op ⟨polySpec d, 0, 0, 0, imm⟩) :
    (encode i).toNat = base + d.val * 2 ^ 20 + imm.toNat := by
  simp [h, pack_toNat, ← hbase]

section
variable (d : PReg) {n : Byte} {s : State}

theorem exec_genpoly_of_eq_zero (hn : n = 0) : exec (.genpoly d n) s = .next (s.raise .invalidDegree) := by
  rw [exec, execGenpoly, if_pos hn, deliver_error]

theorem exec_genpoly_of_overflow (hn : n ≠ 0) (h : s.lmax.val < n.toNat + 1) :
    exec (.genpoly d n) s = .next (s.raise .lengthOverflow) := by
  rw [exec, execGenpoly, if_neg hn, if_pos h, deliver_error]

theorem exec_genpoly_of_fits (hn : n ≠ 0) (h : n.toNat + 1 ≤ s.lmax.val) :
    exec (.genpoly d n) s = .next ((s.setP d (genPoly s.tables n.toNat)).respond 0) := by
  rw [exec, execGenpoly, if_neg hn, if_neg (Nat.not_lt_of_le h), deliver_ok]

end

/-- Settles O43: degree 0 is tested first, then the capacity decides between the write and the error. -/
theorem genpolyWritesTheGeneratorOrFails : Obligations.GenpolyWritesTheGeneratorOrFails := fun d _ _ =>
  ⟨encode_toNat_pdi 0x30 (by decide) rfl, fun hn => exec_fails (exec_genpoly_of_eq_zero d hn),
    fun hn h => exec_fails (exec_genpoly_of_overflow d hn h),
    fun hn h => exec_writes_poly (exec_genpoly_of_fits d hn h)⟩

end Sys2Proof.Machine

/-! The encoder (R110 to R116). Division by the generator leaves a remainder that is linear in the dividend and that a
leading zero does not change; as the codewords are the remainder of the shifted message, their own remainder cancels
it. -/

namespace Sys2Proof.Machine

/-! ## Turns of the division by a divisor with leading coefficient 1 -/

theorem xorAtFront_scale_zero (t : Tables) (w d : Poly) : xorAtFront w (scale t 0 d) = w := by
  have hzero (x : Byte) : x ^^^ 0 = x := BitVec.xor_zero
  exact List.ext_getElem? fun k => by simp only [getElem?_xorAtFront, getD_scale, gfMul_zero_left, hzero, ite_self,
    Option.map_id']

/-- Two multiples of one sequence, taken away one after the other, are the multiple by the sum of the factors. -/
theorem xorAtFront_xorAtFront_scale (a b : Byte) (w d : Poly) :
    xorAtFront (xorAtFront w (scale tableContents b d)) (scale tableContents a d) =
      xorAtFront w (scale tableContents (gfAdd a b) d) := by
  refine List.ext_getElem? fun k => ?_
  simp only [getElem?_xorAtFront, getD_scale, length_scale, Option.map_map, gfAdd, xor_gfMul]
  congr 1
  funext x
  by_cases hk : k < d.length
  · simp only [Function.comp_apply, if_pos hk]
    ac_rfl
  · simp only [Function.comp_apply, if_neg hk]

theorem zipWith_gfAdd_comm (p q : Poly) : List.zipWith gfAdd p q = List.zipWith gfAdd q p :=
  List.zipWith_comm_of_comm fun _ _ => BitVec.xor_comm ..

theorem zipWith_xorAtFront_scale (a b : Byte) (v w d : Poly) :
    List.zipWith gfAdd (xorAtFront v (scale tableContents a d)) (xorAtFront w (scale tableContents b d)) =
      xorAtFront (List.zipWith gfAdd v w) (scale tableContents (gfAdd a b) d) := by
  rw [zipWith_xorAtFront, zipWith_gfAdd_comm v, zipWith_xorAtFront, xorAtFront_xorAtFront_scale,
    zipWith_gfAdd_comm w]

section
variable (ds : Poly)

/-- The factor of a turn is the leading term of the running dividend. -/
theorem divRest_one_cons (x : Byte) (w : Poly) :
    divRest tableContents (1 :: ds) (x :: w) = xorAtFront w (scale tableContents x ds) := by
  rw [divRest, divFactor, List.headD_cons, List.headD_cons, gfQuo_one]
  rfl

theorem divTurns_zero_cons (n : Nat) {w : Poly} (h : ds.length ≤ w.length) :
    (divTurns tableContents (1 :: ds) (n + 1) (0 :: w)).2 = (divTurns tableContents (1 :: ds) n w).2 := by
  have hle : (1 :: ds).length ≤ (0 :: w).length := Nat.succ_le_succ h
  rw [divTurns_succ_of_le _ _ hle, divRest_one_cons, xorAtFront_scale_zero]

/-- The remainder is linear in the dividend, turn by turn. -/
theorem divTurns_zipWith (n : Nat) {v w : Poly} (h : v.length = w.length) :
    (divTurns tableContents (1 :: ds) n (List.zipWith gfAdd v w)).2 =
      List.zipWith gfAdd (divTurns tableContents (1 :: ds) n v).2 (divTurns tableContents (1 :: ds) n w).2 := by
  have hzip : (List.zipWith gfAdd v w).length = v.length := by simp [h]
  induction n generalizing v w with
  | zero => rfl
  | succ n ih =>
    obtain hlt | hle := Nat.lt_or_ge v.length (1 :: ds).length
    · rw [divTurns_of_lt _ _ hlt, divTurns_of_lt _ _ (h.symm.trans_lt hlt), divTurns_of_lt _ _ (hzip.trans_lt hlt)]
    · rw [divTurns_succ_of_le _ _ hle, divTurns_succ_of_le _ _ (hle.trans_eq h),
        divTurns_succ_of_le _ _ (hle.trans_eq hzip.symm)]
      match v, w with
      | x :: v, y :: w =>
        have hrest : (xorAtFront v (scale tableContents x ds)).length =
            (xorAtFront w (scale tableContents y ds)).length := by simpa using h
        rw [List.zipWith_cons_cons, divRest_one_cons, divRest_one_cons, divRest_one_cons,
          ← zipWith_xorAtFront_scale, ih hrest (by simpa using hrest.le)]

end

/-! ## The remainder by the generator -/

/-- The remainder of the division by the generator of degree n. -/
def genRemainder (n : Nat) (p : Poly) : Poly := (divTurns tableContents (genPoly tableContents n) p.length p).2

theorem exists_polyDivrem_genPoly (n : Nat) (p : Poly) :
    ∃ q, polyDivrem tableContents p (genPoly tableContents n) = .ok (q, genRemainder n p) := by
  obtain ⟨ds, hds⟩ := exists_genPoly_eq_one_cons n
  rw [genRemainder, hds]
  exact ⟨_, polyDivrem_of_eq_cons tableContents p ds (by decide)⟩

theorem genRemainder_of_length_eq {n : Nat} {p : Poly} (h : p.length = n) : genRemainder n p = p := by
  rw [genRemainder, divTurns_of_lt _ _ (by rw [length_genPoly, h]; exact Nat.lt_succ_self n)]

theorem length_genRemainder {n : Nat} {p : Poly} (h : n ≤ p.length) : (genRemainder n p).length = n := by
  have hlen := length_genPoly tableContents n
  have hne : genPoly tableContents n ≠ [] := List.length_pos_iff.mp (by omega)
  rw [genRemainder, (length_divTurns tableContents hne (Nat.le_refl p.length)).2, hlen]
  omega

theorem genRemainder_zero_cons {n : Nat} {p : Poly} (h : n ≤ p.length) :
    genRemainder n (0 :: p) = genRemainder n p := by
  obtain ⟨ds, hds⟩ := exists_genPoly_eq_one_cons n
  have hlen : ds.length = n := by simpa [hds] using length_genPoly tableContents n
  rw [genRemainder, genRemainder, hds, List.length_cons, divTurns_zero_cons ds _ (hlen.trans_le h)]

theorem genRemainder_zeros_append (k : Nat) {n : Nat} {p : Poly} (h : n ≤ p.length) :
    genRemainder n (zeros k ++ p) = genRemainder n p := by
  induction k with
  | zero => rfl
  | succ k ih => exact (genRemainder_zero_cons (by simp; omega)).trans ih

theorem genRemainder_zipWith (n : Nat) {p q : Poly} (h : p.length = q.length) :
    genRemainder n (List.zipWith gfAdd p q) = List.zipWith gfAdd (genRemainder n p) (genRemainder n q) := by
  obtain ⟨ds, hds⟩ := exists_genPoly_eq_one_cons n
  have hzip : (List.zipWith gfAdd p q).length = p.length := by simp [h]
  rw [genRemainder, genRemainder, genRemainder, hds, hzip, ← h, divTurns_zipWith ds _ h]

/-- Dividend and remainder agree at the roots of the generator (R93, R102). -/
theorem polyEval_genRemainder (p : Poly) {n i : Nat} (h : i < n) :
    polyEval tableContents p (gfPow tableContents 2 i) =
      polyEval tableContents (genRemainder n p) (gfPow tableContents 2 i) := by
  obtain ⟨ds, hds⟩ := exists_genPoly_eq_one_cons n
  obtain ⟨q, r, hdiv, -, -, hroot⟩ := divisionRoundTrip p _ 1 ds hds (by decide)
  obtain ⟨q', hdiv'⟩ := exists_polyDivrem_genPoly n p
  cases hdiv.symm.trans hdiv'
  exact hroot _ (polyEval_genPoly_eq_zero h)

/-! ## The codewords (R111, R112) -/

theorem ne_nil_and_ne_zero_of_rsEncode_eq_ok {t : Tables} {m ecc : Poly} {n : Nat} (h : rsEncode t m n = .ok ecc) :
    m ≠ [] ∧ n ≠ 0 := by
  rw [← not_or, ← List.length_eq_zero_iff]
  intro hinvalid
  rw [rsEncode, if_pos hinvalid] at h
  cases h

/-- The remainder has n coefficients already: the last step of R111 pads nothing (R113). -/
theorem rsEncode_eq_genRemainder {m : Poly} {n : Nat} (hm : m ≠ []) (hn : n ≠ 0) :
    rsEncode tableContents m n = .ok (genRemainder n (shiftLeft m n)) := by
  obtain ⟨q, hdiv⟩ := exists_polyDivrem_genPoly n (shiftLeft m n)
  have hlen : (genRemainder n (shiftLeft m n)).length = n := length_genRemainder (by simp)
  rw [rsEncode, if_neg (not_or.mpr ⟨mt List.length_eq_zero_iff.mp hm, hn⟩), hdiv]
  exact congrArg Except.ok (padLeft_of_le hlen.ge)

theorem zipWith_zeros_right (p : Poly) : List.zipWith gfAdd p (zeros p.length) = p :=
  (zipWith_gfAdd_comm ..).trans (zipWith_zeros p)

theorem zipWith_gfAdd_self (p : Poly) : List.zipWith gfAdd p p = zeros p.length :=
  List.ext_getElem (by simp) fun i _ _ => by simp [zeros, gfAdd]

/-- The message with its codewords is the shifted message plus the codewords. -/
theorem append_eq_zipWith_shiftLeft (m ecc : Poly) :
    m ++ ecc = List.zipWith gfAdd (shiftLeft m ecc.length) (zeros m.length ++ ecc) := by
  rw [shiftLeft, List.zipWith_append (length_zeros _).symm, zipWith_zeros_right, zipWith_zeros]

/-- The codewords are shorter than the generator, so they are their own remainder and cancel that of the message
(R115). -/
theorem genRemainder_append_genRemainder (m : Poly) (n : Nat) :
    genRemainder n (m ++ genRemainder n (shiftLeft m n)) = zeros n := by
  have hlen : (genRemainder n (shiftLeft m n)).length = n := length_genRemainder (by simp)
  generalize hecc : genRemainder n (shiftLeft m n) = ecc at hlen ⊢
  rw [append_eq_zipWith_shiftLeft, hlen, genRemainder_zipWith n (by simp [hlen]), hecc,
    genRemainder_zeros_append _ hlen.ge, genRemainder_of_length_eq hlen, zipWith_gfAdd_self, hlen]

/-- The value of message and codewords at every root of the generator (R115). -/
theorem polyEval_append_genRemainder (m : Poly) {n i : Nat} (h : i < n) :
    polyEval tableContents (m ++ genRemainder n (shiftLeft m n)) (gfPow tableContents 2 i) = 0 := by
  rw [polyEval_genRemainder _ h, genRemainder_append_genRemainder, polyEval_zeros]

/-- With one codeword the only root is 1, where the value is the exclusive-or of all coefficients. -/
theorem genRemainder_one (m : Poly) :
    genRemainder 1 (shiftLeft m 1) = [fieldSum m.length fun j => m.getD j 0] := by
  obtain ⟨-, -, -, hsum, -⟩ := evaluationIsTheSumOfPowers
  have hroot := polyEval_append_genRemainder m Nat.one_pos
  obtain ⟨c, hc⟩ := List.length_eq_one_iff.mp (length_genRemainder (n := 1) (p := shiftLeft m 1) (by simp))
  rw [hc, gfPow_zero, polyEval_append_singleton, gfMul_one, hsum] at hroot
  rw [hc, BitVec.xor_eq_zero_iff.mp hroot]

theorem shiftLeft_zipWith {p q : Poly} (h : p.length = q.length) (n : Nat) :
    shiftLeft (List.zipWith gfAdd p q) n = List.zipWith gfAdd (shiftLeft p n) (shiftLeft q n) := by
  have hzeros := zipWith_zeros (zeros n)
  rw [length_zeros] at hzeros
  rw [shiftLeft, shiftLeft, shiftLeft, List.zipWith_append h, hzeros]

/-- Linearity, for messages of one length (R115). -/
theorem rsEncode_zipWith {m₁ m₂ e₁ e₂ : Poly} {n : Nat} (hlen : m₁.length = m₂.length)
    (h₁ : rsEncode tableContents m₁ n = .ok e₁) (h₂ : rsEncode tableContents m₂ n = .ok e₂) :
    rsEncode tableContents (List.zipWith gfAdd m₁ m₂) n = .ok (List.zipWith gfAdd e₁ e₂) := by
  obtain ⟨hm₁, hn⟩ := ne_nil_and_ne_zero_of_rsEncode_eq_ok h₁
  obtain ⟨hm₂, -⟩ := ne_nil_and_ne_zero_of_rsEncode_eq_ok h₂
  have hzip : List.zipWith gfAdd m₁ m₂ ≠ [] := by simp [hm₁, hm₂]
  cases h₁.symm.trans (rsEncode_eq_genRemainder hm₁ hn)
  cases h₂.symm.trans (rsEncode_eq_genRemainder hm₂ hn)
  rw [rsEncode_eq_genRemainder hzip hn, shiftLeft_zipWith hlen, genRemainder_zipWith n (by simp [hlen])]

/-- Settles O56: the codewords are the remainder of the shifted message, which is linear in it. -/
theorem codewordsCompleteTheMessage : Obligations.CodewordsCompleteTheMessage := by
  refine ⟨fun m n hm hn => ?_, fun m n hm hn => ?_, fun _ _ _ _ _ => rsEncode_zipWith⟩
  · obtain ⟨q, hdiv⟩ := exists_polyDivrem_genPoly n (m ++ genRemainder n (shiftLeft m n))
    rw [genRemainder_append_genRemainder] at hdiv
    refine ⟨_, rsEncode_eq_genRemainder hm (Nat.ne_of_gt hn), length_genRemainder (by simp), ⟨q, hdiv⟩,
      fun i hi => polyEval_append_genRemainder m hi, ?_⟩
    rintro rfl
    exact genRemainder_one m
  · have hn := Nat.ne_of_gt hn
    rw [rsEncode_eq_genRemainder (List.cons_ne_nil 0 m) hn, rsEncode_eq_genRemainder hm hn]
    exact congrArg Except.ok (genRemainder_zero_cons (by simp))

/-! ## The commands (R110, R112) -/

/-- The value of a word of the form PPI (R45, R46). -/
theorem encode_toNat_ppi {i : Instr} (op : Byte) {base : Nat} {d a : PReg} {imm : Byte}
    (hbase : op.toNat * 2 ^ 24 = base) (h : encode i = pack op ⟨polySpec d, polySpec a, 0, 0, imm⟩) :
    (encode i).toNat = base + d.val * 2 ^ 20 + a.val * 2 ^ 16 + imm.toNat := by
  simp [h, pack_toNat, ← hbase]

theorem toNat_ne_zero {n : Byte} (hn : n ≠ 0) : n.toNat ≠ 0 := BitVec.toNat_ne.mp hn

section
variable (d : PReg) {a : PReg} {n : Byte} {s : State}

theorem exec_pshl_of_fits (h : (s.P a).length + n.toNat ≤ s.lmax.val) :
    exec (.pshl d a n) s = .next ((s.setP d (shiftLeft (s.P a) n.toNat)).respond 0) := by
  rw [exec, execPshl, if_neg (Nat.not_lt_of_le h), deliver_ok]

theorem exec_pshl_of_overflow (h : s.lmax.val < (s.P a).length + n.toNat) :
    exec (.pshl d a n) s = .next (s.raise .lengthOverflow) := by
  rw [exec, execPshl, if_pos h, deliver_error]

theorem exec_rsenc_of_invalid (h : s.P a = [] ∨ n = 0) :
    exec (.rsenc d a n) s = .next (s.raise .invalidInput) := by
  rw [exec, execRsenc, if_pos (h.imp_left List.length_eq_zero_iff.mpr), deliver_error]

variable (ha : s.P a ≠ []) (hn : n ≠ 0)
include ha hn

theorem exec_rsenc_of_overflow (h : s.lmax.val < (s.P a).length + n.toNat) :
    exec (.rsenc d a n) s = .next (s.raise .lengthOverflow) := by
  rw [exec, execRsenc, if_neg (not_or.mpr ⟨mt List.length_eq_zero_iff.mp ha, hn⟩), if_pos h, deliver_error]

theorem exec_rsenc_of_fits (htables : s.tables = tableContents) (h : (s.P a).length + n.toNat ≤ s.lmax.val) :
    exec (.rsenc d a n) s =
      .next ((s.setP d (genRemainder n.toNat (shiftLeft (s.P a) n.toNat))).respond 0) := by
  rw [exec, execRsenc, if_neg (not_or.mpr ⟨mt List.length_eq_zero_iff.mp ha, hn⟩), if_neg (Nat.not_lt_of_le h),
    htables, rsEncode_eq_genRemainder ha (toNat_ne_zero hn)]
  rfl

end

/-- Settles O44: the capacity decides between the write and the error. -/
theorem pshlAppendsZerosOrOverflows : Obligations.PshlAppendsZerosOrOverflows := fun d _ _ _ =>
  ⟨encode_toNat_ppi 0x40 (by decide) rfl, fun h => exec_writes_poly (exec_pshl_of_fits d h),
    fun h => exec_fails (exec_pshl_of_overflow d h)⟩

/-- Settles O45: the input is tested first, then the capacity, and division by the generator cannot fail. -/
theorem rsencWritesTheCodewordsOrFails : Obligations.RsencWritesTheCodewordsOrFails := by
  intro d a n s
  refine ⟨encode_toNat_ppi 0x41 (by decide) rfl, fun h => exec_fails (exec_rsenc_of_invalid d h),
    fun ha hn h => exec_fails (exec_rsenc_of_overflow d ha hn h), fun htables ha hn h => ?_⟩
  obtain ⟨t, hexec, hecc, hsucceeded⟩ := exec_writes_poly (exec_rsenc_of_fits d ha hn htables h)
  refine ⟨t, _, hexec, ?_, hecc, length_genRemainder (by simp), hsucceeded⟩
  rw [htables, rsEncode_eq_genRemainder ha (toNat_ne_zero hn)]

/-! ## The separate commands (R114) -/

/-- PDIVR by a register that holds the generator leaves the remainder. -/
theorem exec_pdivr_genPoly {q r p g : PReg} {n : Nat} {s : State} (htables : s.tables = tableContents) (hqr : q ≠ r)
    (hg : s.P g = genPoly tableContents n) :
    ∃ u, exec (.pdivr q r p g) s = .next u ∧ u.P r = genRemainder n (s.P p) := by
  obtain ⟨quo, hdiv⟩ := exists_polyDivrem_genPoly n (s.P p)
  rw [exec_pdivr_of_ne p g s hqr, htables, hg, hdiv]
  exact ⟨_, rfl, State.P_setP_self _ r _⟩

/-- GENPOLY, PSHL, PDIVR where generator and dividend fit: the message is not overwritten before PSHL reads it, nor
the generator before PDIVR does. -/
theorem execAll_genpoly_pshl_pdivr {a g p q r : PReg} {n : Byte} {s : State} (htables : s.tables = tableContents)
    (hga : g ≠ a) (hgp : g ≠ p) (hqr : q ≠ r) (hn : n ≠ 0) (hgen : n.toNat + 1 ≤ s.lmax.val)
    (hfits : (s.P a).length + n.toNat ≤ s.lmax.val) :
    ∃ u, execAll [.genpoly g n, .pshl p a n, .pdivr q r p g] s = .next u ∧
      u.P r = genRemainder n.toNat (shiftLeft (s.P a) n.toNat) := by
  obtain ⟨s₁, hgenpoly, hg₁, hsucceeded₁⟩ := exec_writes_poly (exec_genpoly_of_fits g hn hgen)
  have ha₁ : s₁.P a = s.P a := hsucceeded₁.registers.polys a (by simpa using hga.symm)
  rw [← ha₁, ← hsucceeded₁.control.lmax] at hfits
  obtain ⟨s₂, hpshl, hp₂, hsucceeded₂⟩ := exec_writes_poly (exec_pshl_of_fits p hfits)
  have hg₂ : s₂.P g = genPoly tableContents n.toNat := by
    rw [hsucceeded₂.registers.polys g (by simpa using hgp), hg₁, htables]
  have htables₂ : s₂.tables = tableContents := by
    rw [hsucceeded₂.control.tables, hsucceeded₁.control.tables, htables]
  obtain ⟨u, hpdivr, hr⟩ := exec_pdivr_genPoly (p := p) htables₂ hqr hg₂
  rw [execAll_cons hgenpoly, execAll_cons hpshl, execAll_singleton, hpdivr]
  exact ⟨u, rfl, by rw [hr, hp₂, ha₁]⟩

/-- Settles O57: both ways leave the remainder of the shifted message; n zeros are shorter than the generator, so the
empty message leaves them. -/
theorem separateCommandsEncodeLikeRsenc : Obligations.SeparateCommandsEncodeLikeRsenc := by
  intro d a g p q r n s htables hga hgp hqr
  refine ⟨fun hn ha hfits => ?_, fun hn ha hgen => ?_, fun hn => exec_fails (exec_genpoly_of_eq_zero g hn)⟩
  · have hgen : n.toNat + 1 ≤ s.lmax.val := by
      have := List.length_pos_iff.mpr ha
      omega
    obtain ⟨t, hrsenc, hd, -⟩ := exec_writes_poly (exec_rsenc_of_fits d ha hn htables hfits)
    obtain ⟨u, hall, hr⟩ := execAll_genpoly_pshl_pdivr htables hga hgp hqr hn hgen hfits
    exact ⟨t, u, hrsenc, hall, hr.trans hd.symm⟩
  · have hfits : (s.P a).length + n.toNat ≤ s.lmax.val := by
      rw [ha, List.length_nil]
      omega
    obtain ⟨u, hall, hr⟩ := execAll_genpoly_pshl_pdivr htables hga hgp hqr hn hgen hfits
    refine ⟨u, hall, ?_⟩
    rw [hr, ha, genRemainder_of_length_eq (by simp)]
    rfl

end Sys2Proof.Machine

/-! Register access and system commands (R120 to R130). Each command answers at once: it writes nothing, writes one
register, or fails; where two commands share an operation, what it decides is said once for both. -/

namespace Sys2Proof

/-- The value of a command word (R45, R49). -/
theorem encode_toNat (i : Instr) :
    (encode i).toNat = i.opcode.code.toNat * 2 ^ 24 + i.fields.d.toNat * 2 ^ 20 + i.fields.a.toNat * 2 ^ 16 +
      i.fields.b.toNat * 2 ^ 12 + i.fields.e.toNat * 2 ^ 8 + i.fields.imm.toNat :=
  pack_toNat _ _

/-- NOP's row of the opcode table masks no bit out (R49). -/
theorem matchesOpcode_nop_iff (w : Word) : MatchesOpcode w .nop ↔ w = 0 := by
  have hmask : Opcode.nop.row.mask = BitVec.allOnes 32 := by decide
  have hmatch : Opcode.nop.row.matchBits = 0 := by decide
  rw [← and_row_mask_eq_iff, hmask, hmatch, BitVec.and_allOnes]

/-- Opcode 0 is NOP's, and NOP leaves every operand field unused (R51). -/
theorem decode_of_opcode_zero {w : Word} (hop : w.toNat < 2 ^ 24) (hw : w ≠ 0) :
    decode w = .error .unusedFieldNonzero := by
  have hcode : Opcode.nop.code = opField w :=
    BitVec.eq_of_toNat_eq ((Machine.opField_toNat w).trans (Nat.div_eq_of_lt hop)).symm
  have hunused : ¬ Opcode.nop.form.layout.unusedZero (fieldsOf w) = true :=
    fun h => hw ((matchesOpcode_nop_iff w).mp ⟨hcode, h⟩)
  rw [decode_of_code hcode, if_pos (Bool.eq_false_of_not_eq_true hunused)]

end Sys2Proof

namespace Sys2Proof.Machine

/-! ## System commands (R120 to R122) -/

/-- Settles O23: a word with opcode 0 other than NOP's has a nonzero unused field. -/
theorem nopChangesNothing : Obligations.NopChangesNothing :=
  ⟨by decide, fun _ => decode_of_opcode_zero, fun s => ⟨_, rfl, succeeded_respond s 0⟩⟩

/-- Settles O24: the command ends with the clearing of the record. -/
theorem clrerrClearsTheRecord : Obligations.ClrerrClearsTheRecord :=
  ⟨by decide, fun _ => ⟨_, rfl, rfl, rfl, ⟨fun _ _ => rfl, fun _ _ => rfl⟩, ⟨rfl, rfl, rfl, rfl⟩, rfl⟩⟩

/-- Concatenated fields do not overlap, so their values add up. -/
theorem toNat_append_eq_add {m n : Nat} (x : BitVec m) (y : BitVec n) :
    (x ++ y).toNat = x.toNat * 2 ^ n + y.toNat := by
  rw [BitVec.toNat_append, ← Nat.shiftLeft_add_eq_or_of_lt y.isLt, Nat.shiftLeft_eq]

/-- The layout of STATUS (R18). -/
theorem statusWord_toNat (s : State) :
    s.statusWord.toNat = s.tblReady.toNat + s.errs.toNat * 2 + s.lastErr.toNat * 2 ^ 8 := by
  simp only [State.statusWord, toNat_append_eq_add, BitVec.toNat_ofBool, BitVec.toNat_ofNat]
  omega

/-- The layout of LIMITS (R19); LMAX fits its eight bits. -/
theorem limitsWord_toNat (s : State) : s.limitsWord.toNat = s.lmax.val + 8 * 2 ^ 8 + 4 * 2 ^ 12 := by
  have hlmax := s.lmax.property.2
  simp only [State.limitsWord, toNat_append_eq_add, BitVec.toNat_ofNat, Config.numPolys, Config.numScalars]
  omega

/-- Every number but 0 and 1 is refused at step 4 of decoding (R52). -/
theorem csrrd_not_wellFormed {n : Byte} (hn : 2 ≤ n.toNat) : (Instr.csrrd n).wellFormed = false := by
  have hne : n ≠ 0 ∧ n ≠ 1 := by bv_omega
  simpa [Instr.wellFormed] using hne

/-- Settles O25: the number decides between the two control registers and step 4 of decoding. -/
theorem csrrdReadsStatusAndLimits : Obligations.CsrrdReadsStatusAndLimits :=
  ⟨fun n => by simp [encode_toNat, Instr.opcode, Opcode.code, Instr.fields],
    fun s => ⟨⟨_, _, rfl, succeeded_respond s _, statusWord_toNat s⟩,
      ⟨_, _, rfl, succeeded_respond s _, limitsWord_toNat s⟩,
      fun _ hn => exec_fails (exec_of_not_wellFormed (csrrd_not_wellFormed hn) s)⟩⟩

/-! ## Scalar access (R123, R124) -/

theorem zext16_toNat (v : Byte) : (zext16 v).toNat = v.toNat := BitVec.toNat_setWidth_of_le (by decide)

/-- Settles O26: the command ends with one write. -/
theorem sliLoadsTheImmediate : Obligations.SliLoadsTheImmediate := fun _ _ _ =>
  ⟨by simp [encode_toNat, Instr.opcode, Opcode.code, Instr.fields], exec_writes_scalar rfl⟩

/-- Settles O27: the command writes nothing, and zero extension keeps the value. -/
theorem srdReturnsTheRegister : Obligations.SrdReturnsTheRegister := fun _ s =>
  ⟨by simp [encode_toNat, Instr.opcode, Opcode.code, Instr.fields],
    ⟨_, _, rfl, succeeded_respond s _, zext16_toNat _⟩⟩

/-! ## Polynomial access (R125 to R130) -/

/-- Settles O34: the command ends with one write. -/
theorem pclrEmptiesTheRegister : Obligations.PclrEmptiesTheRegister := fun d s =>
  ⟨by simp [encode_toNat, Instr.opcode, Opcode.code, Instr.fields], exec_pclr d s⟩

section
variable {i : Instr} {s : State} {d : PReg} {v : Byte} (happend : exec i s = deliver s (appendCoefficient d v s))
include happend

/-- A command that appends to a register with room, whatever its coefficient comes from. -/
theorem exec_appends_of_ne (h : (s.P d).length ≠ s.lmax.val) :
    ∃ t, exec i s = .next t ∧ t.P d = s.P d ++ [v] ∧ Succeeded [] [d] 0 s t :=
  exec_writes_poly (happend.trans (congrArg (deliver s) (if_neg h)))

theorem exec_append_fails_of_eq (h : (s.P d).length = s.lmax.val) :
    ∃ t, exec i s = .next t ∧ Failed .lengthOverflow s t :=
  exec_fails (happend.trans (congrArg (deliver s) (if_pos h)))

end

/-- Settles O35: both commands append, and the length decides between the write and the error. -/
theorem pappAndPappsAppendOrOverflow : Obligations.PappAndPappsAppendOrOverflow := fun _ _ _ _ =>
  ⟨encode_toNat_pdi 0x21 (by decide) rfl,
    by simp [encode_toNat, Instr.opcode, Opcode.code, Instr.fields],
    fun h => ⟨exec_appends_of_ne rfl h, exec_appends_of_ne rfl h⟩,
    fun h => ⟨exec_append_fails_of_eq rfl h, exec_append_fails_of_eq rfl h⟩⟩

section
variable {i : Instr} {s : State} {a : PReg} {j : Byte} {f : Byte → State × Half}
  (hread : exec i s = deliver s ((coefficientAt a j s).map f))
include hread

/-- A command that reads a coefficient below the length goes on with it. -/
theorem exec_reads_of_lt (h : j.toNat < (s.P a).length) :
    exec i s = .next ((f (s.P a)[j.toNat]).1.respond (f (s.P a)[j.toNat]).2) := by
  obtain ⟨hle, -⟩ | ⟨_, hcoeff⟩ := coefficientAt_cases a j s
  · exact absurd h hle.not_gt
  · rw [hread, hcoeff]
    rfl

theorem exec_read_fails_of_le (h : (s.P a).length ≤ j.toNat) :
    ∃ t, exec i s = .next t ∧ Failed .indexRange s t := by
  obtain ⟨-, hcoeff⟩ | ⟨hlt, -⟩ := coefficientAt_cases a j s
  · rw [hcoeff] at hread
    exact exec_fails hread
  · exact absurd hlt h.not_gt

end

/-- Settles O36: both commands read the coefficient, and the length decides between its use and the error. -/
theorem prdAndPgetReadTheCoefficient : Obligations.PrdAndPgetReadTheCoefficient := fun d _ _ s =>
  ⟨by simp [encode_toNat, Instr.opcode, Opcode.code, Instr.fields],
    by simp [encode_toNat, Instr.opcode, Opcode.code, Instr.fields],
    fun h => ⟨⟨_, _, exec_reads_of_lt rfl h, succeeded_respond s _, zext16_toNat _⟩,
      exec_writes_scalar (exec_reads_of_lt (f := fun c => (s.setS d c, 0)) rfl h)⟩,
    fun h => ⟨exec_read_fails_of_le rfl h, exec_read_fails_of_le rfl h⟩⟩

/-- Settles O37: the command ends with one write. -/
theorem pmovCopiesTheRegister : Obligations.PmovCopiesTheRegister := fun _ _ _ =>
  ⟨by simp [encode_toNat, Instr.opcode, Opcode.code, Instr.fields], exec_writes_poly rfl⟩

end Sys2Proof.Machine

/-! Errors (R141 to R146, R157): every command and every step ends in a next state, a command that fails leaves only the
STATUS record, and the errors of each command are those R143 lists for it. -/

namespace Sys2Proof.Machine

/-! ## Nothing stops the unit (R146, R157, R178, R179) -/

theorem exec_next (i : Instr) (s : State) : ∃ t, exec i s = .next t := by
  obtain ⟨r, hr⟩ := exec_eq_deliver i s
  rw [hr]
  exact deliver_next s r

/-- Settles O12: a step and a meaning have no other end. -/
theorem unitNeverStops : Obligations.UnitNeverStops := ⟨step_next, exec_next⟩

/-- Settles O11: the idle step. -/
theorem idleUnitKeepsItsState : Obligations.IdleUnitKeepsItsState := fun _ => step_idle

/-! ## Success or failure (R142, R144) -/

/-- Every result of a command is delivered as a success, which only for CLRERR touches the record, or as a failure. -/
theorem CommandResult.ok_or_failed {i : Instr} {s : State} {r : Except ErrorKind (State × Half)}
    (h : CommandResult i s r) : ∃ t, deliver s r = .next t ∧
      ((∃ data, t.responses = s.responses ++ [responseWord 0 data] ∧ (i ≠ .clrerr → SameStatus s t)) ∨
       (∃ k, Failed k s t)) := by
  cases h with
  | error k => exact ⟨_, rfl, .inr ⟨k, raise_failed s k⟩⟩
  | clear hclr => exact ⟨_, rfl, .inl ⟨0, rfl, fun hi => absurd hclr hi⟩⟩
  | answer | writeS | writeP | writePP => exact ⟨_, rfl, .inl ⟨_, rfl, fun _ => ⟨rfl, rfl⟩⟩⟩

/-- Settles O17: one case per kind of result. -/
theorem commandsSucceedOrLeaveOnlyTheRecord : Obligations.CommandsSucceedOrLeaveOnlyTheRecord := by
  intro i s
  obtain ⟨r, hr, hres⟩ := exec_result i s
  rw [hr]
  exact hres.ok_or_failed

/-! ## The errors of each command (R143) -/

theorem code_eq_of_append_response {rs : List Word} {c d : BitVec 4} {x y : Half}
    (h : rs ++ [responseWord c x] = rs ++ [responseWord d y]) : c = d :=
  (responseWord_inj (List.singleton_injective (List.append_cancel_left h))).1

/-- Only the delivery of error k answers with the response of error k. -/
theorem CommandAnswer.eq_error {i : Instr} {s t : State} {x : Except ErrorKind (State × Half)} {k : ErrorKind}
    (h : CommandAnswer i s x) (ht : deliver s x = .next t)
    (hresp : t.responses = s.responses ++ [responseWord k.code 0]) : x = .error k := by
  cases h with
  | own | illegalForm | rsencDivision =>
    cases ht
    exact congrArg Except.error (code_injective (code_eq_of_append_response hresp))
  | data =>
    cases ht
    exact absurd (code_eq_of_append_response hresp).symm (code_ne_zero k)
  | done hu =>
    cases ht
    rw [State.respond_responses, hu] at hresp
    exact absurd (code_eq_of_append_response hresp).symm (code_ne_zero k)

theorem raise_injective (s : State) : Function.Injective s.raise := fun _ _ h =>
  code_injective (congrArg State.lastErr h)

/-- With the tables filled, RSENC fails on its input or its length, or writes: division by the generator cannot fail
(R116). -/
theorem exec_rsenc_cases (d a : PReg) (n : Byte) {s : State} (htables : s.tables = tableContents) :
    exec (.rsenc d a n) s = .next (s.raise .invalidInput) ∨ exec (.rsenc d a n) s = .next (s.raise .lengthOverflow) ∨
    ∃ p, exec (.rsenc d a n) s = .next ((s.setP d p).respond 0) := by
  by_cases hinput : s.P a = [] ∨ n = 0
  · exact .inl (exec_rsenc_of_invalid d hinput)
  · obtain ⟨ha, hn⟩ := not_or.mp hinput
    obtain hover | hfits := Nat.lt_or_ge s.lmax.val ((s.P a).length + n.toNat)
    · exact .inr (.inl (exec_rsenc_of_overflow d ha hn hover))
    · exact .inr (.inr ⟨_, exec_rsenc_of_fits d ha hn htables hfits⟩)

theorem exec_rsenc_ne_divisionByZero (d a : PReg) (n : Byte) {s : State} (htables : s.tables = tableContents) :
    exec (.rsenc d a n) s ≠ .next (s.raise .divisionByZero) := by
  intro h
  obtain he | he | ⟨p, he⟩ := exec_rsenc_cases d a n htables
  · injection he.symm.trans h with hstate
    exact absurd (raise_injective s hstate) (by decide)
  · injection he.symm.trans h with hstate
    exact absurd (raise_injective s hstate) (by decide)
  · injection he.symm.trans h with hstate
    exact absurd (code_eq_of_append_response (congrArg State.responses hstate)) (by decide)

/-- Settles O18: one case per error among the answers of a command; filled tables shut out that of RSENC's division. -/
theorem commandsRaiseOnlyTheirErrors : Obligations.CommandsRaiseOnlyTheirErrors := by
  intro i s t k htables h hresp
  obtain ⟨x, hx, hanswer⟩ := exec_answer i s
  obtain rfl := hanswer.eq_error (hx.symm.trans h) hresp
  cases hanswer with
  | own hk => exact .inl hk
  | illegalForm hi => exact .inr ⟨rfl, hi⟩
  | rsencDivision hi =>
    subst hi
    exact absurd hx (exec_rsenc_ne_divisionByZero _ _ _ htables)

end Sys2Proof.Machine

/-! Reset and hazards (R165 to R168). Each settling is the equation of the step in its case, with what the state it
leads to holds; a reset at the port and a reset inside a command lead to the same state. -/

namespace Sys2Proof.Machine

/-! ## TableInit (R166, R167) -/

theorem tableInit_registersExcept (s : State) : RegistersExcept [] [] s s.tableInit where
  scalars i _ := State.S_tableInit s i
  polys k _ := State.P_tableInit s k

theorem tableInit_sameStatus (s : State) : SameStatus s s.tableInit where
  errs := State.tableInit_errs s
  lastErr := State.tableInit_lastErr s

/-- The command that waited for TableInit runs in the state TableInit left, consumed there and not before. -/
theorem step_tableInit_command {s : State} {w : Word} {rest : List HostEvent} (h : s.host = .command w :: rest) :
    step s.tableInit = executeWord w (s.tableInit.consume rest) :=
  step_command (State.tableInit_tblReady s) ((State.tableInit_host s).trans h)

/-- Settles O7: the step is TableInit, which keeps all but the tables and `tbl_ready`, and its result is a ready unit
with the same command at its head. -/
theorem commandsWaitForTableInit : Obligations.CommandsWaitForTableInit := by
  intro s hwait hreset
  refine ⟨s.tableInit, step_tableInit hwait hreset, State.tableInit_tables s, State.tableInit_tblReady s,
    tableInit_registersExcept s, tableInit_sameStatus s, State.tableInit_lmax s, State.tableInit_host s,
    State.tableInit_responses s, ?_⟩
  intro w rest hhost
  exact step_tableInit_command hhost

/-! ## Reset (R165, R168) -/

/-- What a reset leaves once its event is consumed: reset values in the unit, and outside it the parameter, the later
events and the responses already delivered. -/
theorem applyReset_consume_values (s : State) (rest : List HostEvent) :
    let t := (s.consume rest).applyReset
    (∀ i, t.S i = 0) ∧ (∀ k, t.P k = []) ∧ t.errs = 0 ∧ t.lastErr = 0 ∧ t.tblReady = false ∧
      t.lmax = s.lmax ∧ t.host = rest ∧ t.responses = s.responses :=
  ⟨State.S_applyReset _, State.P_applyReset _, State.applyReset_errs _, State.applyReset_lastErr _,
    State.applyReset_tblReady _, State.applyReset_lmax _, State.applyReset_host _, State.applyReset_responses _⟩

/-- Settles O8: in any state the step of a reset at the port is the reset. -/
theorem resetGivesResetValues : Obligations.ResetGivesResetValues :=
  fun s rest hhost => ⟨(s.consume rest).applyReset, step_reset hhost, applyReset_consume_values s rest⟩

/-- Settles O9: the step of a command that a reset interrupts is the reset alone; the word is never executed. -/
theorem resetAbandonsTheCommandItInterrupts : Obligations.ResetAbandonsTheCommandItInterrupts :=
  fun s _ rest hready hhost =>
    ⟨(s.consume rest).applyReset, step_resetDuring hready hhost, applyReset_consume_values s rest⟩

end Sys2Proof.Machine
